-- ==== Sys2Proof/Word.lean ====
section
/-! DEFINITION. The two data units of the block: a byte and a 16-bit word (spec/00_scope.md R11, spec/20_memory.md R55). -/

namespace Sys2Proof

/-- A byte, an unsigned value 0..255 (R11). -/
abbrev Byte := BitVec 8

/-- A word, an unsigned value 0..65535 (R11). -/
abbrev Word := BitVec 16

end Sys2Proof
end

