-- ==== Sys2Proof/Config.lean ====
section
/-! DEFINITION. The fixed constants of the hardware (spec/00_scope.md R8) and the configuration record of one
codec instance (R7, spec/10_state.md R30). The spec leaves no result value open, so no free value stands here. -/

namespace Sys2Proof

/-- `PRESET`, "a fixed preset (0xFFFF)" (R8). -/
def preset : Word := 0xFFFF#16

/-- `RESIDUE`, "a fixed constant (0x1D0F)" (R8). -/
def residue : Word := 0x1D0F#16

/-- `FLAG`, the delimiter byte 0x7E (R8). -/
def flagByte : Byte := 0x7E#8

/-- `ESC`, the escape byte 0x7D (R8). -/
def escByte : Byte := 0x7D#8

/-- `ESC_XOR`, 0x20 (R8). -/
def escXor : Byte := 0x20#8

/-- The largest count a `CN` header can hold, `n = w[10:0]` (spec/30_encoding.md R72). -/
def maxCount : Nat := 2047

/-- The least frame length the decoder delivers: "accumulated length ≥ 3" in both modes (spec/42_frame_decoder.md R151). -/
def minFrame : Nat := 3

/-- `CFG = {CRC_EN, MAX_PAYLOAD}`, fixed when an instance is built, the same for its `ENC` and its `DEC`, written and
read by no command (R30). -/
structure Cfg where
  /-- `CRC_EN`: the encoder appends the CRC and the decoder validates the residue (R7). -/
  crcEn : Bool
  /-- `MAX_PAYLOAD`: the payload buffer's capacity in bytes, the CRC bytes included (R7). -/
  maxPayload : Nat
  deriving DecidableEq, Repr

/-- The legal configurations: `CRC_EN` 0 or 1, `3 ≤ MAX_PAYLOAD ≤ 2047` (R7). -/
abbrev Cfg.Legal (c : Cfg) : Prop := 3 ≤ c.maxPayload ∧ c.maxPayload ≤ 2047

/-- The values of this hardware: `CRC_EN = 1`, `MAX_PAYLOAD = 1024` (R7). -/
def Cfg.thisHardware : Cfg := { crcEn := true, maxPayload := 1024 }

end Sys2Proof
end

