-- ==== Sys2Proof/Syntax.lean ====
section
/-! DEFINITION. The seven commands of spec/30_encoding.md R74 (spec/opcode_table.json), one constructor per row. -/

namespace Sys2Proof

/-- A command of the block with its operands (R72): a byte for format `C8`, a byte sequence for format `CN`. -/
inductive Instr where
  /-- `CRC_RESET`, CRC16 `reset()` on `CRC0` (spec/40_crc16.md R100). -/
  | crcReset
  /-- `CRC_UPDATE d`, CRC16 `update(byte)` on `CRC0` (R101). -/
  | crcUpdate (d : Byte)
  /-- `CRC_VALUE`, CRC16 `value()` on `CRC0` (R102). -/
  | crcValue
  /-- `CRC_ISRES`, CRC16 `isResidue()` on `CRC0` (R103). -/
  | crcIsres
  /-- `DEC_FEED d`, one wire byte to the decoder (spec/42_frame_decoder.md R150). -/
  | decFeed (d : Byte)
  /-- `DEC_FEED_CHUNK s`, a whole chunk to the decoder (R160). -/
  | decFeedChunk (s : List Byte)
  /-- `ENC_FRAME s`, one payload to the encoder (spec/41_frame_encoder.md R130). -/
  | encFrame (s : List Byte)
  deriving DecidableEq, Repr

end Sys2Proof
end

