-- ==== Sys2Proof/Decode.lean ====
section
/-! DEFINITION. Command words and commands (spec/30_encoding.md sections 1 to 3): the fields of a word, the opcode map,
the decoder (total, refusing by name), and after it the encoder. -/

namespace Sys2Proof

/-! ## Fields of a word (R71, R72) -/

/-- `op = w[15:12]`. -/
def opField (w : Word) : BitVec 4 := w.extractLsb' 12 4

/-- `d = w[7:0]`, the byte operand of format `C8` and the byte of a data word. -/
def dataField (w : Word) : Byte := w.extractLsb' 0 8

/-- `w[15:8]`, which must be zero in a data word (R71, R76). -/
def highField (w : Word) : Byte := w.extractLsb' 8 8

/-- `n = w[10:0]`, the byte count of a `CN` header. -/
def countField (w : Word) : Nat := (w.extractLsb' 0 11).toNat

/-! ## The opcode map (R74) -/

/-- The seven opcodes, without operands. -/
inductive Opcode where
  | crcReset | crcUpdate | crcValue | crcIsres | decFeed | decFeedChunk | encFrame
  deriving DecidableEq, Repr

/-- One row of the opcode map: a header word `w` selects it where `w & mask = value`. -/
structure OpcodeRow where
  opcode : Opcode
  value  : Word
  mask   : Word
  deriving DecidableEq, Repr

/-- The opcode map of R74, in its order. -/
def opcodeMap : List OpcodeRow :=
  [ { opcode := .crcReset,     value := 0x1000#16, mask := 0xFFFF#16 },
    { opcode := .crcUpdate,    value := 0x2000#16, mask := 0xFF00#16 },
    { opcode := .crcValue,     value := 0x3000#16, mask := 0xFFFF#16 },
    { opcode := .crcIsres,     value := 0x4000#16, mask := 0xFFFF#16 },
    { opcode := .decFeed,      value := 0x8000#16, mask := 0xFF00#16 },
    { opcode := .decFeedChunk, value := 0x9000#16, mask := 0xF800#16 },
    { opcode := .encFrame,     value := 0xA000#16, mask := 0xF800#16 } ]

/-- The word selects the row. -/
def OpcodeRow.selects (r : OpcodeRow) (w : Word) : Bool := w &&& r.mask == r.value

/-- The opcode whose row the header word selects; none for the illegal header words of R75. -/
def selectOpcode (w : Word) : Option Opcode := (opcodeMap.find? fun r => r.selects w).map (·.opcode)

/-! ## The decoder -/

/-- Why a command is refused before it has a meaning (R75, R76). -/
inductive DecodeError where
  /-- No header word is there (an empty stream). -/
  | noHeader
  /-- `op` is one of the reserved opcodes 0x0, 0x5, 0x6, 0x7, 0xB to 0xF (R75). -/
  | reservedOpcode (w : Word)
  /-- A must-be-zero bit of a header with a defined opcode is set (R75). -/
  | mustBeZero (w : Word)
  /-- A data word has one of its bits 15..8 set (R76). -/
  | badDataWord (w : Word)
  /-- The stream ends before the last data word of a `CN` command (R76). -/
  | truncated
  deriving DecidableEq, Repr

/-- The opcodes R74 assigns, by `op` alone. -/
def opDefined (w : Word) : Bool := opcodeMap.any fun r => opField r.value == opField w

/-- The name under which an illegal header word is refused (R75). -/
def headerError (w : Word) : DecodeError := if opDefined w then .mustBeZero w else .reservedOpcode w

/-- The byte sequence held by the next `n` data words, and the words after them (R72, R76). -/
def takeBytes : Nat → List Word → Except DecodeError (List Byte × List Word)
  | 0, ws => .ok ([], ws)
  | _ + 1, [] => .error .truncated
  | n + 1, w :: ws =>
    if highField w = 0#8 then
      match takeBytes n ws with
      | .ok (bs, rest) => .ok (dataField w :: bs, rest)
      | .error e => .error e
    else .error (.badDataWord w)

/-- A `CN` command's operand, given to the command's constructor. -/
def counted (mk : List Byte → Instr) (w : Word) (ws : List Word) : Except DecodeError (Instr × List Word) :=
  match takeBytes (countField w) ws with
  | .ok (bs, rest) => .ok (mk bs, rest)
  | .error e => .error e

/-- The decoder: the command at the front of a command stream and the words after it, or the reason it is refused
(R70 to R78). -/
def decode : List Word → Except DecodeError (Instr × List Word)
  | [] => .error .noHeader
  | w :: ws =>
    match selectOpcode w with
    | some .crcReset => .ok (.crcReset, ws)
    | some .crcUpdate => .ok (.crcUpdate (dataField w), ws)
    | some .crcValue => .ok (.crcValue, ws)
    | some .crcIsres => .ok (.crcIsres, ws)
    | some .decFeed => .ok (.decFeed (dataField w), ws)
    | some .decFeedChunk => counted .decFeedChunk w ws
    | some .encFrame => counted .encFrame w ws
    | none => .error (headerError w)

/-- The commands of a whole stream; the first argument bounds their number. None where a command is refused or words
are left over. -/
def decodeAll : Nat → List Word → Option (List Instr)
  | _, [] => some []
  | 0, _ :: _ => none
  | k + 1, w :: ws =>
    match decode (w :: ws) with
    | .ok (i, rest) => (decodeAll k rest).map (i :: ·)
    | .error _ => none

/-- The length in words of the command a header word begins, known from `op` alone (R73). -/
def commandLength (w : Word) : Nat :=
  if opField w = 0x9#4 ∨ opField w = 0xA#4 then 1 + countField w else 1

/-! ## The encoder -/

/-- A data word `0x00bb` (R71, format `D`). -/
def dataWord (b : Byte) : Word := b.setWidth 16

/-- A `CN` command: the header `op, 0, n` and `n` data words (R71). -/
def encodeCounted (op : Word) (s : List Byte) : List Word := (op ||| BitVec.ofNat 16 s.length) :: s.map dataWord

/-- The words of a well-formed command (R71, R79). -/
def encode : Instr → List Word
  | .crcReset => [0x1000#16]
  | .crcUpdate d => [0x2000#16 ||| d.setWidth 16]
  | .crcValue => [0x3000#16]
  | .crcIsres => [0x4000#16]
  | .decFeed d => [0x8000#16 ||| d.setWidth 16]
  | .decFeedChunk s => encodeCounted 0x9000#16 s
  | .encFrame s => encodeCounted 0xA000#16 s

/-! ## Instructions as the opcode table numbers their bits -/

/-- The first `k` words of a number whose bit 0 is the least significant bit of the first word. -/
def wordsOfNat : Nat → Nat → List Word
  | 0, _ => []
  | k + 1, w => BitVec.ofNat 16 w :: wordsOfNat k (w / 65536)

/-- The words of an instruction whose table bits are `w`: the words that hold those `nbits` bits (at least the header), then
words of zeros up to the longest command. The command port carries whole words, so no byte order applies (R54). -/
def tableWords (nbits w : Nat) : List Word :=
  wordsOfNat (max 1 ((nbits + 15) / 16)) w ++ List.replicate maxCount 0#16

/-- The words of `tableWords` that belong to the command its header begins. -/
def tableCommand (nbits w : Nat) : List Word :=
  (tableWords nbits w).take (commandLength (BitVec.ofNat 16 w))

/-- The command the decoder reads from an instruction whose table bits are `w`; none where it is refused. -/
def decodeTableWord (nbits w : Nat) : Option Instr :=
  match decode (tableCommand nbits w) with
  | .ok (i, _) => some i
  | .error _ => none

end Sys2Proof
end

