-- ==== Sys2Proof/Machine/State.lean ====
section
/-! DEFINITION. The state of one spec instance (spec/10_state.md R22, R30, R33 to R35; spec/60_exceptions.md R193), the reasons a
step can stop, and the state after reset (spec/70_reset_and_hazards.md R220). -/

namespace Sys2Proof.Machine

/-- The model-only diagnostic events of the decoder (R193); the block does not output them and no rule reads them. -/
inductive Event where
  /-- Code 0, `NONE`: an opening or idle delimiter; not recorded. -/
  | noEvent
  /-- Code 1, `PAYLOAD`: one payload delivered (case F2). -/
  | payload
  /-- Code 2, `DROP_ESC_FLAG`: a delimiter after an escape (case F1). -/
  | dropEscFlag
  /-- Code 3, `DROP_CRC`: residue mismatch (case F3). -/
  | dropCrc
  /-- Code 4, `DROP_SHORT`: 1 or 2 bytes buffered (case F3). -/
  | dropShort
  /-- Code 5, `OVERFLOW`: a data byte beyond the capacity (case O). -/
  | overflow
  /-- Code 6, `DROP_ABANDONED`: the end of an abandoned frame (case F3). -/
  | dropAbandoned
  deriving DecidableEq, Repr

/-- One spec instance: the elements of R22, its configuration, the host's stream, and what the ports have carried. -/
structure State where
  /-- `CFG` (R30), written by no command. MODEL'S OWN PLACE: the spec calls it configuration (log entry 1, DESIGN CHOICE, safe). -/
  cfg : Cfg
  /-- `CRC0.ACC`, the host-visible CRC16 engine's accumulator (R23). -/
  crc0 : Word
  /-- `TX_CRC.ACC`, the encoder's accumulator (R24). -/
  txCrc : Word
  /-- `RX_CRC.ACC`, the decoder's accumulator (R25). -/
  rxCrc : Word
  /-- `DEC.ESC`, escapePending (R26). -/
  decEsc : Bool
  /-- `DEC.FAIL`, failedFrame (R27). -/
  decFail : Bool
  /-- `DEC.BUF[0:DEC.LEN]`; its length is `DEC.LEN` (R28, R29; log entry 2, DESIGN CHOICE, safe). -/
  decBuf : List Byte
  /-- MODEL'S OWN: the command words not yet taken from the command port (R70; log entry 3, DESIGN CHOICE, safe). -/
  stream : List Word
  /-- The index of the next command in the host's stream (R21; log entry 3, DESIGN CHOICE, safe). -/
  pos : Nat
  /-- What the response port `RESP` has carried, oldest first (R33; log entry 4, DESIGN CHOICE, safe). -/
  resp : List Word
  /-- What the frame-out port has carried, oldest first (R34; log entry 4). -/
  frames : List (List Byte)
  /-- What the payload-out port has delivered, oldest first (R35; log entry 4). -/
  payloads : List (List Byte)
  /-- The model-only event list, oldest first (R193). -/
  events : List Event
  deriving DecidableEq, Repr

/-- `DEC.LEN`, the number of bytes held in `DEC.BUF` (R28, R29). -/
def State.decLen (s : State) : Nat := s.decBuf.length

/-- The block raises no exception (R190, R196): there is no fault, so this type is empty. Nobody raises one. -/
inductive Fault where
  deriving DecidableEq, Repr

/-- The reasons a command is refused (R78). The refused outcome IS the refusal mark: the run ends there (log entry 5,
DESIGN CHOICE, safe). -/
inductive Refusal where
  /-- An arm of `exec` that has no meaning yet; no arm of this model is left so. Safe. -/
  | notModelled (mnemonic : String)
  /-- Raised by `step` at a header or data word that is illegal, or missing (R75, R76). Safe: the spec errs toward unprovable (D5). -/
  | illegalCommand (reason : DecodeError)
  /-- `ENC_TOO_LONG`, raised by `ENC_FRAME` for a payload longer than `MAX_PAYLOAD` (R133). Safe (D13). -/
  | encTooLong
  deriving DecidableEq, Repr

/-- An instance with configuration `c` right after its construction (R220): every accumulator `PRESET`, the flags and
`DEC.LEN` 0, nothing on any port, no event, no command taken. -/
def State.resetWith (c : Cfg) : State :=
  { cfg := c, crc0 := preset, txCrc := preset, rxCrc := preset, decEsc := false, decFail := false, decBuf := [],
    stream := [], pos := 0, resp := [], frames := [], payloads := [], events := [] }

/-- This hardware right after reset: `CRC_EN = 1`, `MAX_PAYLOAD = 1024` (R7, R220). -/
def State.reset : State := State.resetWith Cfg.thisHardware

end Sys2Proof.Machine
end

