-- ==== Sys2Proof/Machine/Ops.lean ====
section
/-! DEFINITION. The named operations: reading and writing the state elements, the ports (spec/00_scope.md R13), the CRC16
functions (spec/40_crc16.md), the wire's bytes (spec/30_encoding.md R83 to R85), and taking a command from the port (R70).
The block takes no exception (spec/60_exceptions.md R190, R196), so there is no operation for one. -/

namespace Sys2Proof.Machine

/-! ## State elements -/

/-- `CRC0.ACC <- v`. -/
def State.setCrc0 (s : State) (v : Word) : State := { s with crc0 := v }

/-- `TX_CRC.ACC <- v`. -/
def State.setTxCrc (s : State) (v : Word) : State := { s with txCrc := v }

/-- `RX_CRC.ACC <- v`, a step involving CRC: skipped when `CRC_EN = 0` (spec/42_frame_decoder.md R154, R155; D11). -/
def State.setRxCrc (s : State) (v : Word) : State := { s with rxCrc := if s.cfg.crcEn then v else s.rxCrc }

/-- `DEC.BUF[DEC.LEN] <- v` and `DEC.LEN <- DEC.LEN + 1`. -/
def State.appendByte (s : State) (v : Byte) : State := { s with decBuf := s.decBuf ++ [v] }

/-- `DEC.LEN <- 0`. -/
def State.clearBuf (s : State) : State := { s with decBuf := [] }

/-! ## Ports and events -/

/-- `Respond(v)` (R33). -/
def State.respond (s : State) (v : Word) : State := { s with resp := s.resp ++ [v] }

/-- `EmitFrame(f)` (R34). -/
def State.emitFrame (s : State) (f : List Byte) : State := { s with frames := s.frames ++ [f] }

/-- `EmitPayload(p)` (R35). -/
def State.emitPayload (s : State) (p : List Byte) : State := { s with payloads := s.payloads ++ [p] }

/-- The codes of the events (R193). -/
def Event.code : Event → Nat
  | .noEvent => 0
  | .payload => 1
  | .dropEscFlag => 2
  | .dropCrc => 3
  | .dropShort => 4
  | .overflow => 5
  | .dropAbandoned => 6

/-- What `Event(code)` appends: `Event(NONE)` appends nothing (R193). -/
def Event.recorded (e : Event) : List Event := if e = .noEvent then [] else [e]

/-- `Event(code)` (R193). -/
def State.event (s : State) (e : Event) : State := { s with events := s.events ++ e.recorded }

/-! ## The CRC16 engine (R100 to R106) -/

/-- `CrcUpdate(acc, b)`: fold one byte into an accumulator (R101). The shifts act on 16 bits, where the rule masks with
0xFFFF at the end. -/
def crcUpdate (acc : Word) (b : Byte) : Word :=
  let t : Byte := (acc >>> 8).setWidth 8 ^^^ b
  let x : Byte := t ^^^ (t >>> 4)
  let y : Word := x.setWidth 16
  (acc <<< 8) ^^^ (y <<< 12) ^^^ (y <<< 5) ^^^ y

/-- `Fold(a, s)`: one `CrcUpdate` per byte, in order (spec/10_state.md R36). -/
def crcFold : Word → List Byte → Word
  | a, [] => a
  | a, b :: s => crcFold (crcUpdate a b) s

/-- `CrcIsResidue(a)` (R103). -/
def crcIsResidue (a : Word) : Bool := a == residue

/-- `hi(w) = w[15:8]` (spec/00_scope.md R12). -/
def hiByte (w : Word) : Byte := w.extractLsb' 8 8

/-- `lo(w) = w[7:0]` (R12). -/
def loByte (w : Word) : Byte := w.extractLsb' 0 8

/-- The two bytes an encoder sends after a payload: `~Fold(PRESET, s) & 0xFFFF`, high byte first
(spec/41_frame_encoder.md R131). -/
def crcBytes (s : List Byte) : List Byte := [hiByte (~~~crcFold preset s), loByte (~~~crcFold preset s)]

/-! ## Bytes on the wire (R84, R85) -/

/-- The two byte values that are escaped (spec/41_frame_encoder.md R132). -/
def needsEscape (b : Byte) : Bool := b == flagByte || b == escByte

/-- `Escaped(b)` (R132). -/
def escapedByte (b : Byte) : List Byte := if needsEscape b then [escByte, b ^^^ escXor] else [b]

/-- `escaped` of a sequence: the concatenation over its bytes (R84). -/
def escapedBytes (s : List Byte) : List Byte := s.flatMap escapedByte

/-- The unescaped bytes between the delimiters: the payload and, if `CRC_EN = 1`, its two CRC bytes (R130 step 1). -/
def frameItems (crcEn : Bool) (s : List Byte) : List Byte := if crcEn then s ++ crcBytes s else s

/-- The frame of a payload (R84; R130 steps 2 to 4). -/
def frameOf (crcEn : Bool) (s : List Byte) : List Byte :=
  flagByte :: (escapedBytes (frameItems crcEn s) ++ [flagByte])

/-! ## The command port -/

/-- What the command port holds for the next step. -/
inductive Fetched where
  /-- No word waits: the block is idle (spec/60_exceptions.md R204). -/
  | idle
  /-- A command, and the words after it. -/
  | command (i : Instr) (rest : List Word)
  /-- A command that is refused (R78). -/
  | illegal (e : DecodeError)
  deriving DecidableEq, Repr

/-- The next command of the host's stream (R70, R73). -/
def fetch (s : State) : Fetched :=
  match s.stream with
  | [] => .idle
  | w :: ws =>
    match decode (w :: ws) with
    | .ok (i, rest) => .command i rest
    | .error e => .illegal e

/-- The host's stream moves on by one command, whatever its words (spec/10_state.md R21). -/
def State.takeCommand (s : State) (rest : List Word) : State := { s with stream := rest, pos := s.pos + 1 }

/-- Command words placed at the front of the host's stream. -/
def State.placeWords (s : State) (ws : List Word) : State := { s with stream := ws ++ s.stream }

end Sys2Proof.Machine
end

