-- ==== Sys2Proof/Machine/Crc16.lean ====
section
/-! DEFINITION. The four commands of the CRC16 engine on `CRC0` (spec/40_crc16.md R100 to R103). None writes a flag, and none
touches `TX_CRC` or `RX_CRC` (R106). -/

namespace Sys2Proof.Machine

/-- `CRC_RESET`: `CRC0.ACC <- PRESET` (R100). -/
def execCrcReset (s : State) : Host.Outcome State Fault Refusal := .next (s.setCrc0 preset)

/-- `CRC_UPDATE d`: `CRC0.ACC <- CrcUpdate(CRC0.ACC, d)` (R101). -/
def execCrcUpdate (d : Byte) (s : State) : Host.Outcome State Fault Refusal := .next (s.setCrc0 (crcUpdate s.crc0 d))

/-- `CRC_VALUE`: `Respond(CRC0.ACC)`, the raw accumulator, not inverted (R102). -/
def execCrcValue (s : State) : Host.Outcome State Fault Refusal := .next (s.respond s.crc0)

/-- `CRC_ISRES`: `Respond(CrcIsResidue(CRC0.ACC) ? 1 : 0)`, as the words 0x0001 and 0x0000 (R103, spec/30_encoding.md R82). -/
def execCrcIsres (s : State) : Host.Outcome State Fault Refusal :=
  .next (s.respond (if crcIsResidue s.crc0 then 0x0001#16 else 0x0000#16))

end Sys2Proof.Machine
end

