-- ==== Sys2Proof/Machine/Flags.lean ====
section
/-! DEFINITION. The two status flags of the block, `DEC.ESC` and `DEC.FAIL` (spec/10_state.md R26, R27, R32), and the tests the
decoder makes at a delimiter (spec/42_frame_decoder.md R150, R151, R156). The block has no condition codes. -/

namespace Sys2Proof.Machine

/-- `DEC.ESC <- v`. -/
def State.setDecEsc (s : State) (v : Bool) : State := { s with decEsc := v }

/-- `DEC.FAIL <- v`. -/
def State.setDecFail (s : State) (v : Bool) : State := { s with decFail := v }

/-- The test of case F2: `DEC.FAIL = 0`, at least 3 bytes buffered, and the residue reached unless CRC is off (R156). -/
def State.frameValid (s : State) : Bool :=
  !s.decFail && decide (minFrame ≤ s.decLen) && (!s.cfg.crcEn || crcIsResidue s.rxCrc)

/-- The payload case F2 delivers: the buffer, less the two received CRC bytes when `CRC_EN = 1` (R156). -/
def State.framePayload (s : State) : List Byte :=
  s.decBuf.take (if s.cfg.crcEn then s.decLen - 2 else s.decLen)

/-- The event of case F3 (R150, R191). -/
def State.dropReason (s : State) : Event :=
  if s.decFail then .dropAbandoned
  else if s.decLen = 0 then .noEvent
  else if s.decLen < minFrame then .dropShort
  else .dropCrc

end Sys2Proof.Machine
end

