-- ==== Sys2Proof/Machine/Operands.lean ====
section
/-! DEFINITION. The forms of the decoder's operand: the class of a wire byte (spec/30_encoding.md R83) and the value a data byte
stands for (spec/42_frame_decoder.md R154). The byte and sequence operands themselves are assembled by the decoder of command
words (R72, Sys2Proof/Decode.lean); no operand is a register number or an address. -/

namespace Sys2Proof.Machine

/-- The three classes of a wire byte (R83). -/
inductive WireClass where
  | flag | esc | other
  deriving DecidableEq, Repr

/-- The class of a wire byte, tested in the order of R83. -/
def wireClass (d : Byte) : WireClass := if d = flagByte then .flag else if d = escByte then .esc else .other

/-- The value `v` of a data byte: `d ^ 0x20` after an escape, whatever `d` is, else `d` (R154, R85). -/
def unescape (esc : Bool) (d : Byte) : Byte := if esc then d ^^^ escXor else d

end Sys2Proof.Machine
end

