-- ==== Sys2Proof/Machine/FrameDecoder.lean ====
section
/-! DEFINITION. The incremental frame decoder's two commands (spec/42_frame_decoder.md R150 to R160). -/

namespace Sys2Proof.Machine

/-- What every delimiter ends with: `DEC.LEN <- 0`, `DEC.FAIL <- 0` and, if `CRC_EN = 1`, `CrcReset(RX_CRC)` (R151). -/
def endFrame (s : State) : State := ((s.clearBuf).setDecFail false).setRxCrc preset

/-- Case F, a delimiter: F1 after an escape, F2 a valid frame, F3 nothing to deliver; delivery and reset are one step (R151). -/
def takeFlag (s : State) : State :=
  if s.decEsc then endFrame ((s.setDecEsc false).event .dropEscFlag)
  else if s.frameValid then endFrame ((s.emitPayload s.framePayload).event .payload)
  else endFrame (s.event s.dropReason)

/-- Case E: an escape is pending, the byte is neither buffered nor folded (R152). -/
def takeEsc (s : State) : State := s.setDecEsc true

/-- Case O: the data byte would exceed `MAX_PAYLOAD`; it is dropped and the frame abandoned (R155). -/
def takeOverflow (s : State) : State := ((s.setRxCrc preset).setDecFail true).event .overflow

/-- Case D: the data byte is unescaped, the escape cleared, and the byte appended and folded, or case O (R154, R155). -/
def takeData (d : Byte) (s : State) : State :=
  let v := unescape s.decEsc d
  let s := s.setDecEsc false
  if s.decLen = s.cfg.maxPayload then takeOverflow s
  else (s.appendByte v).setRxCrc (crcUpdate s.rxCrc v)

/-- `DecByte(d)`, the cases in the rule's order: F, E, I, D (R150). -/
def decByte (d : Byte) (s : State) : State :=
  if wireClass d = .flag then takeFlag s
  else if wireClass d = .esc ∧ s.decEsc = false ∧ s.decFail = false then takeEsc s
  else if s.decFail then s
  else takeData d s

/-- `DecByte` of each byte of a sequence, in order (R160). -/
def decBytes : List Byte → State → State
  | [], s => s
  | d :: ds, s => decBytes ds (decByte d s)

/-- `DEC_FEED d` (R150): every byte is accepted in every state (R170). -/
def execDecFeed (d : Byte) (s : State) : Host.Outcome State Fault Refusal := .next (decByte d s)

/-- `DEC_FEED_CHUNK ds` (R160): the whole loop is one step (spec/20_memory.md R56). -/
def execDecFeedChunk (ds : List Byte) (s : State) : Host.Outcome State Fault Refusal := .next (decBytes ds s)

end Sys2Proof.Machine
end

