-- ==== Sys2Proof/Machine/FrameEncoder.lean ====
section
/-! DEFINITION. The command of the frame encoder (spec/41_frame_encoder.md R130 to R133). -/

namespace Sys2Proof.Machine

/-- Step 1 of R130: with `CRC_EN = 1`, `TX_CRC` is reset and folds the payload; with `CRC_EN = 0` it is left alone. -/
def runTxCrc (p : List Byte) (s : State) : State := if s.cfg.crcEn then s.setTxCrc (crcFold preset p) else s

/-- `ENC_FRAME p`: refused beyond `MAX_PAYLOAD` (R133), else the frame of `p` goes to the frame-out port (R130). -/
def execEncFrame (p : List Byte) (s : State) : Host.Outcome State Fault Refusal :=
  if s.cfg.maxPayload < p.length then .refused .encTooLong
  else .next ((runTxCrc p s).emitFrame (frameOf s.cfg.crcEn p))

end Sys2Proof.Machine
end

