-- ==== Sys2Proof/Machine/Dispatch.lean ====
section
/-! DEFINITION. The dispatch: one arm per command of spec/30_encoding.md R74, each one call of its meaning. -/

namespace Sys2Proof.Machine

def exec (i : Instr) (s : State) : Host.Outcome State Fault Refusal :=
  match i with
  | .crcReset => Sys2Proof.Machine.execCrcReset s
  | .crcUpdate d => Sys2Proof.Machine.execCrcUpdate d s
  | .crcValue => Sys2Proof.Machine.execCrcValue s
  | .crcIsres => Sys2Proof.Machine.execCrcIsres s
  | .decFeed d => Sys2Proof.Machine.execDecFeed d s
  | .decFeedChunk ds => Sys2Proof.Machine.execDecFeedChunk ds s
  | .encFrame p => Sys2Proof.Machine.execEncFrame p s

end Sys2Proof.Machine
end

