-- ==== Sys2Proof/Machine/Step.lean ====
section
/-! DEFINITION. One step of the block: the next command of the host's stream is taken and runs whole
(spec/10_state.md R20, R21; spec/00_scope.md R14). -/

namespace Sys2Proof.Machine

/-- One step: with no word waiting the block is idle and holds its state (spec/60_exceptions.md R204); an illegal command is
refused with none of its effects (spec/30_encoding.md R78); else the stream moves on by one command, which runs. -/
def step (s : State) : Host.Outcome State Fault Refusal :=
  match fetch s with
  | .idle => .next s
  | .command i rest => exec i (s.takeCommand rest)
  | .illegal e => .refused (.illegalCommand e)

/-- `s` with the instruction whose table bits are `w` at the front of the host's stream, where `step` takes its next
command (operand words above `nbits` are words of zeros). -/
def State.withFetchWord (s : State) (nbits w : Nat) : State := s.placeWords (tableCommand nbits w)

end Sys2Proof.Machine
end

