-- ==== Sys2Proof/Machine/Assembler.lean ====
section
/-! DEFINITION. The assembler syntax and the pseudo-instructions (spec/30_encoding.md R79 to R81). The text is a list of
characters; where R79 leaves a spelling open, log entry 8 says what is accepted (DESIGN CHOICE, safe: no step reads it). -/

namespace Sys2Proof.Machine

/-- One item of a `<bytes>` list (R79). -/
inductive AsmItem where
  /-- `<byte>` -/
  | byte (b : Byte)
  /-- `<byte>*<count>`, that many copies -/
  | repeated (b : Byte) (count : Nat)
  /-- a double-quoted ASCII string, its characters' codes in order -/
  | text (bs : List Byte)
  deriving DecidableEq, Repr

/-- One line of assembly: the seven commands (R79) and the three pseudo-instructions (R80). -/
inductive AsmLine where
  | crcReset
  | crcUpdate (d : Byte)
  | crcValue
  | crcIsres
  | decFeed (d : Byte)
  | decFeedn (items : List AsmItem)
  | encFrame (items : List AsmItem)
  | crcUpdn (items : List AsmItem)
  | crcBlock (items : List AsmItem)
  | decFeeds (items : List AsmItem)
  deriving DecidableEq, Repr

/-- The bytes an item stands for. -/
def itemBytes : AsmItem → List Byte
  | .byte b => [b]
  | .repeated b n => List.replicate n b
  | .text bs => bs

/-- The bytes a `<bytes>` list stands for. -/
def listBytes (items : List AsmItem) : List Byte := items.flatMap itemBytes

/-- The byte-list operand of a line; empty where it has none. -/
def lineBytes : AsmLine → List Byte
  | .crcReset => []
  | .crcUpdate _ => []
  | .crcValue => []
  | .crcIsres => []
  | .decFeed _ => []
  | .decFeedn items => listBytes items
  | .encFrame items => listBytes items
  | .crcUpdn items => listBytes items
  | .crcBlock items => listBytes items
  | .decFeeds items => listBytes items

/-- The commands a line stands for: itself, or the expansion of a pseudo-instruction (R80). -/
def expandLine : AsmLine → List Instr
  | .crcReset => [.crcReset]
  | .crcUpdate d => [.crcUpdate d]
  | .crcValue => [.crcValue]
  | .crcIsres => [.crcIsres]
  | .decFeed d => [.decFeed d]
  | .decFeedn items => [.decFeedChunk (listBytes items)]
  | .encFrame items => [.encFrame (listBytes items)]
  | .crcUpdn items => (listBytes items).map .crcUpdate
  | .crcBlock items => .crcReset :: (listBytes items).map .crcUpdate
  | .decFeeds items => (listBytes items).map .decFeed

/-- The words of a line; none where its byte list is longer than 2047 (R79; for the lists of the pseudo-instructions the
bound is the model's choice, and so is that an `enc.frame` longer than `MAX_PAYLOAD` is assembled, to be refused by the step, log
entry 8). -/
def assembleLine (l : AsmLine) : Option (List Word) :=
  if (lineBytes l).length ≤ maxCount then some ((expandLine l).flatMap encode) else none

/-! ## Reading the text of a line -/

/-- A space or a tab; CR is none (log entry 8). -/
def isBlank (c : Char) : Bool := c == ' ' || c == '\t'

/-- The double quote that opens and closes a string. -/
def quoteMark : Char := Char.ofNat 34

/-- The text without blanks at its ends. -/
def trimBlanks (cs : List Char) : List Char := ((cs.dropWhile isBlank).reverse.dropWhile isBlank).reverse

/-- The text before the first `;` that stands outside a string; the flag says whether a string is open. That a `;` inside a
string begins no comment is the model's choice (log entry 8). -/
def stripComment : Bool → List Char → List Char
  | _, [] => []
  | inString, c :: cs =>
    if c == ';' && !inString then []
    else c :: stripComment (if c == quoteMark then !inString else inString) cs

/-- The pieces between separators that stand outside a string; the flag says whether a string is open. -/
def splitOutside (sep : Char) : Bool → List Char → List (List Char)
  | _, [] => [[]]
  | inString, c :: cs =>
    if c == sep && !inString then [] :: splitOutside sep false cs
    else
      match splitOutside sep (if c == quoteMark then !inString else inString) cs with
      | [] => [[c]]
      | p :: ps => (c :: p) :: ps

/-- The value of a decimal or hexadecimal digit. -/
def digitValue (base : Nat) (c : Char) : Option Nat :=
  let n := c.toNat
  let v := if 48 ≤ n ∧ n ≤ 57 then n - 48
    else if 97 ≤ n ∧ n ≤ 102 then n - 87
    else if 65 ≤ n ∧ n ≤ 70 then n - 55
    else base
  if v < base then some v else none

/-- The value of a run of digits, after the value already read. -/
def digitsValue (base : Nat) : Nat → List Char → Option Nat
  | v, [] => some v
  | v, c :: cs =>
    match digitValue base c with
    | some x => digitsValue base (v * base + x) cs
    | none => none

/-- An integer written in decimal or with `0x` (R79). Leading zeros, in any number, are the model's choice, and so are hexadecimal
digits of either case (log entry 8). -/
def parseNumber : List Char → Option Nat
  | [] => none
  | '0' :: 'x' :: c :: cs => digitsValue 16 0 (c :: cs)
  | c :: cs => digitsValue 10 0 (c :: cs)

/-- `<byte>`: an integer 0..255 (R79). -/
def parseByte (cs : List Char) : Option Byte :=
  match parseNumber cs with
  | some n => if n < 256 then some (BitVec.ofNat 8 n) else none
  | none => none

/-- The inside of a string up to its closing quote, which must be the text's last character. That a string may be empty, an item
of no bytes, and may hold any ASCII character but the quote, none of them an escape, is the model's choice (log entry 8). -/
def parseStringTail : List Char → Option (List Byte)
  | [] => none
  | c :: cs =>
    if c == quoteMark then (if cs.isEmpty then some [] else none)
    else if c.toNat < 128 then (parseStringTail cs).map (BitVec.ofNat 8 c.toNat :: ·)
    else none

/-- One item, its blanks trimmed (R79). That a count may be 0, an item of no bytes, may be written like a byte, with `0x` too, and
has no bound of its own is the model's choice (log entry 8). -/
def parseItem (cs : List Char) : Option AsmItem :=
  match cs with
  | [] => none
  | c :: rest =>
    if c == quoteMark then (parseStringTail rest).map .text
    else
      match splitOutside '*' false cs with
      | [b] => (parseByte b).map .byte
      | [b, n] =>
        match parseByte b, parseNumber n with
        | some v, some k => some (.repeated v k)
        | _, _ => none
      | _ => none

/-- All the pieces, each an item; none where one is not. -/
def parseItems : List (List Char) → Option (List AsmItem)
  | [] => some []
  | p :: ps =>
    match parseItem (trimBlanks p), parseItems ps with
    | some i, some is => some (i :: is)
    | _, _ => none

/-- `<bytes>`: a comma-separated list, possibly empty (R79). -/
def parseBytes (cs : List Char) : Option (List AsmItem) :=
  if (trimBlanks cs).isEmpty then some [] else parseItems (splitOutside ',' false cs)

/-- What a line of text is. -/
inductive ParsedLine where
  /-- Nothing but blanks and a comment. -/
  | blank
  /-- A line of R79 or R80. -/
  | line (l : AsmLine)
  /-- "An assembler rejects any other spelling" (R79). -/
  | rejected
  deriving DecidableEq, Repr

/-- The line a spelling gives, or its rejection. -/
def parsedOf : Option AsmLine → ParsedLine
  | some l => .line l
  | none => .rejected

/-- A line with no operand, its operand text empty. -/
def parseBare (l : AsmLine) (operand : List Char) : Option AsmLine := if operand.isEmpty then some l else none

/-- The line of a mnemonic (lower case) and its operand text (R79, R80). -/
def parseCommand (mnemonic operand : List Char) : Option AsmLine :=
  if mnemonic = ['c', 'r', 'c', '.', 'r', 'e', 's', 'e', 't'] then parseBare .crcReset operand
  else if mnemonic = ['c', 'r', 'c', '.', 'u', 'p', 'd', 'a', 't', 'e'] then (parseByte operand).map .crcUpdate
  else if mnemonic = ['c', 'r', 'c', '.', 'v', 'a', 'l', 'u', 'e'] then parseBare .crcValue operand
  else if mnemonic = ['c', 'r', 'c', '.', 'i', 's', 'r', 'e', 's'] then parseBare .crcIsres operand
  else if mnemonic = ['d', 'e', 'c', '.', 'f', 'e', 'e', 'd'] then (parseByte operand).map .decFeed
  else if mnemonic = ['d', 'e', 'c', '.', 'f', 'e', 'e', 'd', 'n'] then (parseBytes operand).map .decFeedn
  else if mnemonic = ['e', 'n', 'c', '.', 'f', 'r', 'a', 'm', 'e'] then (parseBytes operand).map .encFrame
  else if mnemonic = ['c', 'r', 'c', '.', 'u', 'p', 'd', 'n'] then (parseBytes operand).map .crcUpdn
  else if mnemonic = ['c', 'r', 'c', '.', 'b', 'l', 'o', 'c', 'k'] then (parseBytes operand).map .crcBlock
  else if mnemonic = ['d', 'e', 'c', '.', 'f', 'e', 'e', 'd', 's'] then (parseBytes operand).map .decFeeds
  else none

/-- A line of text (R79). That a line of blanks or a comment alone stands for no command, and that at least one blank parts a
mnemonic from its operand, is the model's choice (log entry 8). -/
def parseLine (text : List Char) : ParsedLine :=
  let cs := trimBlanks (stripComment false text)
  if cs.isEmpty then .blank
  else parsedOf (parseCommand (cs.takeWhile fun c => !isBlank c) (trimBlanks (cs.dropWhile fun c => !isBlank c)))

/-- The words of the lines of a text, in order. That one rejected line leaves the whole text without words is the model's choice
(log entry 8). -/
def assembleLines : List (List Char) → Option (List Word)
  | [] => some []
  | t :: ts =>
    match parseLine t with
    | .blank => assembleLines ts
    | .rejected => none
    | .line l =>
      match assembleLine l, assembleLines ts with
      | some ws, some more => some (ws ++ more)
      | _, _ => none

/-- The lines of a text, one command a line (R79). That LF alone ends a line, also inside an open string, and that CR neither
ends a line nor is a blank, is the model's choice (log entry 8). -/
def splitLines : List Char → List (List Char)
  | [] => [[]]
  | c :: cs =>
    if c == '\n' then [] :: splitLines cs
    else
      match splitLines cs with
      | [] => [[c]]
      | p :: ps => (c :: p) :: ps

/-- The words of an assembly text (R79). -/
def assemble (text : List Char) : Option (List Word) := assembleLines (splitLines text)

end Sys2Proof.Machine
end

