-- ==== Sys2Proof/Machine/System.lean ====
section
/-! DEFINITION. Several spec instances side by side (spec/00_scope.md R10, spec/60_exceptions.md R202): they share no state, so a
command to one of them is a step of that one alone. -/

namespace Sys2Proof.Machine

/-- The instances with the next state of a step of the `k`-th put in its place; none where there is no such instance or its
step gives no next state. That a refused command of one instance leaves the whole system without a next state, and so ends
the run of the other instances too, is the model's choice (log entry 6): R78 speaks of the rest of the run and R220 of a mark
per instance. -/
def stepInstance : Nat → List State → Option (List State)
  | _, [] => none
  | 0, s :: rest =>
    match step s with
    | .next t => some (t :: rest)
    | .fault _ => none
    | .refused _ => none
  | k + 1, s :: rest => (stepInstance k rest).map (s :: ·)

end Sys2Proof.Machine
end

