-- ==== Sys2Proof/Machine/Program.lean ====
section
/-! DEFINITION. Several commands one after another: the host issues them in order, each complete before the next
(spec/10_state.md R20, spec/20_memory.md R58). -/

namespace Sys2Proof.Machine

/-- The commands' meanings in the order given, stopping at the first refusal (R58, R78). -/
def execAll : List Instr → State → Host.Outcome State Fault Refusal
  | [], s => .next s
  | i :: is, s =>
    match exec i s with
    | .next t => execAll is t
    | .fault r => .fault r
    | .refused r => .refused r

/-- The wire bytes a command feeds to the decoder; none for a command that feeds nothing. -/
def fedBytes : Instr → Option (List Byte)
  | .decFeed d => some [d]
  | .decFeedChunk ds => some ds
  | .crcReset => none
  | .crcUpdate _ => none
  | .crcValue => none
  | .crcIsres => none
  | .encFrame _ => none

end Sys2Proof.Machine
end

