-- ==== Sys2Proof/Safety.lean ====
section
/-! DEFINITION. What claims call a good state and a good run: the invariants of spec/10_state.md R36, the lengths of delivered
payloads (spec/42_frame_decoder.md R169), the states a run reaches, and the next state of an outcome. -/

namespace Sys2Proof.Machine

/-- The next state an outcome gives, if it gives one. -/
def nextState : Host.Outcome State Fault Refusal → Option State
  | .next t => some t
  | .fault _ => none
  | .refused _ => none

/-- The reason an outcome refuses, if it does. -/
def refusalOf : Host.Outcome State Fault Refusal → Option Refusal
  | .next _ => none
  | .fault _ => none
  | .refused r => some r

/-- INV1: a failed frame has no escape pending. -/
abbrev FailHasNoEscape (s : State) : Prop := s.decFail = true → s.decEsc = false

/-- INV2: `DEC.LEN` is at most `MAX_PAYLOAD`. -/
abbrev LenWithinCapacity (s : State) : Prop := s.decLen ≤ s.cfg.maxPayload

/-- INV3: a failed frame has a full buffer. -/
abbrev FailHasFullBuffer (s : State) : Prop := s.decFail = true → s.decLen = s.cfg.maxPayload

/-- INV4: with CRC on and no failed frame, `RX_CRC` is the fold of the buffer from `PRESET`. -/
abbrev RxCrcIsFold (s : State) : Prop :=
  s.cfg.crcEn = true → s.decFail = false → s.rxCrc = crcFold preset s.decBuf

/-- INV5: with CRC off, `RX_CRC` keeps 0xFFFF. -/
abbrev RxCrcUntouched (s : State) : Prop := s.cfg.crcEn = false → s.rxCrc = 0xFFFF#16

/-- The invariants of R36 over a legal configuration (R30). -/
abbrev State.Inv (s : State) : Prop :=
  s.cfg.Legal ∧ FailHasNoEscape s ∧ LenWithinCapacity s ∧ FailHasFullBuffer s ∧ RxCrcIsFold s ∧ RxCrcUntouched s

/-- The length of a payload the decoder may deliver (R169). -/
abbrev PayloadLengthOk (c : Cfg) (p : List Byte) : Prop :=
  (c.crcEn = true → 1 ≤ p.length ∧ p.length + 2 ≤ c.maxPayload) ∧
    (c.crcEn = false → 3 ≤ p.length ∧ p.length ≤ c.maxPayload)

/-- Every payload delivered so far has such a length. -/
abbrev State.PayloadsOk (s : State) : Prop := ∀ p ∈ s.payloads, PayloadLengthOk s.cfg p

/-- The decoder as any FLAG leaves it: nothing buffered, no flag set (R221). -/
abbrev State.BetweenFrames (s : State) : Prop := s.decBuf = [] ∧ s.decEsc = false ∧ s.decFail = false

/-- The states an instance built with `c` reaches: from its reset, by steps, while the host puts any words on the command
port at any time (R20, R36). -/
inductive Reachable (c : Cfg) : State → Prop where
  | reset : Reachable c (State.resetWith c)
  | hostWrites (s : State) (ws : List Word) (h : Reachable c s) : Reachable c { s with stream := s.stream ++ ws }
  | byStep (s t : State) (h : Reachable c s) (hs : step s = .next t) : Reachable c t

end Sys2Proof.Machine
end

