-- ==== Sys2Proof/WellFormed.lean ====
section
/-! DEFINITION. Which commands have an encoding: the count of a `CN` command is 0..2047 (spec/30_encoding.md R72).
A byte operand is a byte by construction (spec/40_crc16.md R101), so no other command has a check. -/

namespace Sys2Proof

/-- The command can be written in command words. `ENC_FRAME` longer than `MAX_PAYLOAD` but within the count field IS
well formed: it decodes, and its meaning refuses it (spec/41_frame_encoder.md R133). -/
def Instr.wf : Instr → Bool
  | .crcReset => true
  | .crcUpdate _ => true
  | .crcValue => true
  | .crcIsres => true
  | .decFeed _ => true
  | .decFeedChunk s => decide (s.length ≤ maxCount)
  | .encFrame s => decide (s.length ≤ maxCount)

end Sys2Proof
end

