-- ==== Sys2Proof/Certificates/Slice0/Obligations.lean ====
section
/-! DEFINITION. The statements for the provers, each a `Prop`, made from the numbered rules of spec/. The definitions of
`Sys2Proof.Claims` write a rule's pseudocode out in full, apart from the model's own operations. -/

namespace Sys2Proof.Claims

open Sys2Proof Sys2Proof.Machine

/-- The formula of R101 on unbounded numbers, masked as the rule masks. -/
def crcUpdateAsWritten (acc b : Nat) : Nat :=
  let x0 := ((acc >>> 8) ^^^ b) &&& 0xFF
  let x := x0 ^^^ (x0 >>> 4)
  ((acc <<< 8) ^^^ (x <<< 12) ^^^ (x <<< 5) ^^^ x) &&& 0xFFFF

/-- The shift-register form of R104: eight times, shift left and XOR 0x1021 where bit 15 was set. -/
def shiftRegister : Nat → Word → Word
  | 0, a => a
  | k + 1, a => shiftRegister k (if a.getLsbD 15 = true then (a <<< 1) ^^^ 0x1021#16 else a <<< 1)

/-- The escaping of R132, written out. -/
def escapedAsWritten (b : Byte) : List Byte := if b = 0x7E#8 ∨ b = 0x7D#8 then [0x7D#8, b ^^^ 0x20#8] else [b]

/-- The two CRC bytes of R131, high byte first. -/
def sentCrc (p : List Byte) : List Byte :=
  let c := ~~~crcFold 0xFFFF#16 p
  [c.extractLsb' 8 8, c.extractLsb' 0 8]

/-- The unescaped bytes of a frame: the payload, and the CRC bytes if `CRC_EN = 1` (R130 step 1). -/
def itemsAsWritten (crcEn : Bool) (p : List Byte) : List Byte := if crcEn = true then p ++ sentCrc p else p

/-- The frame of R130, steps 1 to 4. -/
def frameAsWritten (crcEn : Bool) (p : List Byte) : List Byte :=
  [0x7E#8] ++ (itemsAsWritten crcEn p).flatMap escapedAsWritten ++ [0x7E#8]

/-- The pseudocode of R150, every write spelled out. -/
def decByteAsWritten (d : Byte) (s : State) : State :=
  if d = 0x7E#8 then
    let u : State :=
      if s.decEsc = true then { s with decEsc := false, events := s.events ++ [.dropEscFlag] }
      else if s.decFail = false ∧ 3 ≤ s.decBuf.length ∧ (s.cfg.crcEn = false ∨ s.rxCrc = 0x1D0F#16) then
        { s with
          payloads := s.payloads ++
            [s.decBuf.take (if s.cfg.crcEn = true then s.decBuf.length - 2 else s.decBuf.length)],
          events := s.events ++ [.payload] }
      else
        { s with
          events := s.events ++
            (if s.decFail = true then [.dropAbandoned]
             else if s.decBuf.length = 0 then []
             else if s.decBuf.length < 3 then [.dropShort]
             else [.dropCrc]) }
    { u with decBuf := [], decFail := false, rxCrc := if u.cfg.crcEn = true then 0xFFFF#16 else u.rxCrc }
  else if d = 0x7D#8 ∧ s.decEsc = false ∧ s.decFail = false then { s with decEsc := true }
  else if s.decFail = true then s
  else
    let v := if s.decEsc = true then d ^^^ 0x20#8 else d
    if s.decBuf.length = s.cfg.maxPayload then
      { s with
        decEsc := false, decFail := true, rxCrc := if s.cfg.crcEn = true then 0xFFFF#16 else s.rxCrc,
        events := s.events ++ [.overflow] }
    else
      { s with
        decEsc := false, decBuf := s.decBuf ++ [v],
        rxCrc := if s.cfg.crcEn = true then crcUpdate s.rxCrc v else s.rxCrc }

/-- The unescaped data bytes of a wire sequence without FLAG, and whether an escape is pending at its end; the first
argument says whether one is pending before it (R162). -/
def dataOf : Bool → List Byte → List Byte × Bool
  | esc, [] => ([], esc)
  | false, d :: ds =>
    if d = 0x7D#8 then dataOf true ds else (d :: (dataOf false ds).1, (dataOf false ds).2)
  | true, d :: ds => ((d ^^^ 0x20#8) :: (dataOf false ds).1, (dataOf false ds).2)

/-- The decoder's condition for delivering `u` at the next FLAG, when no escape is pending and nothing overflowed but by
its length (R162). -/
abbrev Deliverable (c : Cfg) (u : List Byte) : Prop :=
  3 ≤ u.length ∧ u.length ≤ c.maxPayload ∧
    (c.crcEn = true → u.drop (u.length - 2) = sentCrc (u.take (u.length - 2)))

/-- The payload of a delivered `u` (R156). -/
def payloadOf (c : Cfg) (u : List Byte) : List Byte := if c.crcEn = true then u.take (u.length - 2) else u

/-- The payload lengths that round-trip (R163). -/
abbrev RoundTrips (c : Cfg) (p : List Byte) : Prop :=
  (c.crcEn = true → 1 ≤ p.length ∧ p.length + 2 ≤ c.maxPayload) ∧
    (c.crcEn = false → 3 ≤ p.length ∧ p.length ≤ c.maxPayload)

/-- The payload lengths that the encoder takes and the decoder never delivers (R164). -/
abbrev NeverRoundTrips (c : Cfg) (p : List Byte) : Prop :=
  (c.crcEn = true → p.length = 0 ∨ p.length + 1 = c.maxPayload ∨ p.length = c.maxPayload) ∧
    (c.crcEn = false → p.length < 3)

/-- With CRC on, the decoder's accumulator holds the preset, as after reset or any FLAG (R221). -/
abbrev RxFresh (s : State) : Prop := s.cfg.crcEn = true → s.rxCrc = 0xFFFF#16

/-- Two instances whose decoders are in the same state. -/
abbrev SameDecoder (s t : State) : Prop :=
  s.cfg = t.cfg ∧ s.rxCrc = t.rxCrc ∧ s.decEsc = t.decEsc ∧ s.decFail = t.decFail ∧ s.decBuf = t.decBuf

/-- What each command may write; every other field is as before. -/
def OnlyItsOwn (i : Instr) (s t : State) : Prop :=
  match i with
  | .crcReset => t = { s with crc0 := t.crc0 }
  | .crcUpdate _ => t = { s with crc0 := t.crc0 }
  | .crcValue => t = { s with resp := t.resp }
  | .crcIsres => t = { s with resp := t.resp }
  | .decFeed _ =>
    t = { s with
      rxCrc := t.rxCrc, decEsc := t.decEsc, decFail := t.decFail, decBuf := t.decBuf,
      payloads := t.payloads, events := t.events }
  | .decFeedChunk _ =>
    t = { s with
      rxCrc := t.rxCrc, decEsc := t.decEsc, decFail := t.decFail, decBuf := t.decBuf,
      payloads := t.payloads, events := t.events }
  | .encFrame _ => t = { s with txCrc := t.txCrc, frames := t.frames }

end Sys2Proof.Claims

open Sys2Proof Sys2Proof.Machine Sys2Proof.Claims

/-! ## Reset and the machine as a whole -/

/-- R220: the values an instance holds right after its construction, for every legal configuration, and this hardware's
configuration (R7). A state is no refused outcome, so the refusal mark is clear (log entry 5). -/
def Obligations.ResetLeavesTheStatedValues : Prop :=
  (∀ c : Cfg, c.Legal →
    (State.resetWith c).cfg = c ∧
    (State.resetWith c).crc0 = 0xFFFF#16 ∧ (State.resetWith c).txCrc = 0xFFFF#16 ∧
    (State.resetWith c).rxCrc = 0xFFFF#16 ∧
    (State.resetWith c).decEsc = false ∧ (State.resetWith c).decFail = false ∧ (State.resetWith c).decLen = 0 ∧
    (State.resetWith c).resp = [] ∧ (State.resetWith c).frames = [] ∧ (State.resetWith c).payloads = [] ∧
    (State.resetWith c).events = []) ∧
  State.reset = State.resetWith { crcEn := true, maxPayload := 1024 }

/-- The invariants of R36 hold at reset, for every legal configuration. -/
def Obligations.ResetSatisfiesTheInvariants : Prop :=
  (∀ c : Cfg, c.Legal → (State.resetWith c).Inv ∧ (State.resetWith c).PayloadsOk) ∧ State.reset.Inv

/-- INV1 to INV5 of R36 (the spec's inference "by induction over commands"): every step keeps them, from every state that
has them. -/
def Obligations.EveryStepKeepsTheInvariants : Prop :=
  ∀ s t : State, s.Inv → step s = .next t → t.Inv

/-- R36, the spec's inference "Every reachable state satisfies": whatever words the host puts on the command port, and
whenever. -/
def Obligations.EveryReachableStateHasTheInvariants : Prop :=
  ∀ (c : Cfg) (s : State), c.Legal → Reachable c s → s.Inv

/-- A step runs the decoded command: the stream moves on by its words, the position by one, and the meaning runs. The
stream and the position as fields of the state are the model's choice (log entry 3). -/
def Obligations.StepRunsTheDecodedCommand : Prop :=
  ∀ (s : State) (i : Instr) (rest : List Word), decode s.stream = .ok (i, rest) →
    step s = exec i { s with stream := rest, pos := s.pos + 1 }

/-- R204, "between commands it is idle and holds all of its state": with no word on the port a step changes nothing
(the port as a field is the model's choice, log entry 3). -/
def Obligations.IdleStepHoldsTheState : Prop :=
  ∀ s : State, s.stream = [] → step s = .next s

/-- R21, on the model's own position field (log entry 3): one command per step, whatever its words, and no command
transfers control: what is left of the stream is what follows the command. -/
def Obligations.PositionAdvancesByOneCommand : Prop :=
  ∀ s t : State, s.stream ≠ [] → step s = .next t →
    t.pos = s.pos + 1 ∧ ∃ i, decode s.stream = .ok (i, t.stream)

/-- R58 over the model's stream (log entry 3): running the words of any well-formed commands, one step each, is running
their meanings in order; a refusal ends both alike. -/
def Obligations.CommandStreamRunsInOrder : Prop :=
  ∀ (cmds : List Instr) (rest : List Word) (s : State), (∀ i ∈ cmds, i.wf = true) →
    Sys2Proof.core.run cmds.length { s with stream := cmds.flatMap encode ++ rest } =
      execAll cmds { s with stream := rest, pos := s.pos + cmds.length }

/-- The outputs of a step come after those before it on every port, and nothing already put out changes (R58, R35). -/
def Obligations.OutputsOnlyGrow : Prop :=
  ∀ s t : State, step s = .next t →
    s.resp <+: t.resp ∧ s.frames <+: t.frames ∧ s.payloads <+: t.payloads ∧ s.events <+: t.events

/-- The frame of every command (the "written by" column of R22): no other accumulator, flag, buffer, port, stream or
configuration field changes. -/
def Obligations.EachCommandLeavesTheRestUnchanged : Prop :=
  ∀ (i : Instr) (s t : State), exec i s = .next t → OnlyItsOwn i s t

/-- R202, R10: instances share no state: a step of one that gives a next state leaves every other as it was, and is that
one's own step. The system as a list, without a next state where a step is refused, is the model's choice (log entry 6). -/
def Obligations.InstancesShareNoState : Prop :=
  ∀ (k : Nat) (ss ts : List State), stepInstance k ss = some ts →
    ts.length = ss.length ∧ (∀ j, j ≠ k → ts[j]? = ss[j]?) ∧
      ∃ s t, ss[k]? = some s ∧ step s = .next t ∧ ts[k]? = some t

/-! ## Command words -/

/-- Decode and encode agree on every well-formed command, with every operand. -/
def Obligations.DecodeOfEncodeIsIdentity : Prop :=
  ∀ (i : Instr) (rest : List Word), i.wf = true → decode (encode i ++ rest) = .ok (i, rest)

/-- What decodes is well formed, and its words are the command's encoding: each command has one spelling. -/
def Obligations.DecodedWordsAreTheEncoding : Prop :=
  ∀ (ws : List Word) (i : Instr) (rest : List Word), decode ws = .ok (i, rest) →
    i.wf = true ∧ ws = encode i ++ rest

/-- R74: the row a header word selects by `w & mask = match` is the command it decodes to, and at most one row matches. -/
def Obligations.HeaderWordSelectsItsRow : Prop :=
  (∀ (w : Word) (ws : List Word) (i : Instr) (rest : List Word), decode (w :: ws) = .ok (i, rest) →
    (i = .crcReset ↔ w &&& 0xFFFF#16 = 0x1000#16) ∧
    ((∃ d, i = .crcUpdate d) ↔ w &&& 0xFF00#16 = 0x2000#16) ∧
    (i = .crcValue ↔ w &&& 0xFFFF#16 = 0x3000#16) ∧
    (i = .crcIsres ↔ w &&& 0xFFFF#16 = 0x4000#16) ∧
    ((∃ d, i = .decFeed d) ↔ w &&& 0xFF00#16 = 0x8000#16) ∧
    ((∃ s, i = .decFeedChunk s) ↔ w &&& 0xF800#16 = 0x9000#16) ∧
    ((∃ s, i = .encFrame s) ↔ w &&& 0xF800#16 = 0xA000#16)) ∧
  (∀ w : Word,
    [decide (w &&& 0xFFFF#16 = 0x1000#16), decide (w &&& 0xFF00#16 = 0x2000#16), decide (w &&& 0xFFFF#16 = 0x3000#16),
     decide (w &&& 0xFFFF#16 = 0x4000#16), decide (w &&& 0xFF00#16 = 0x8000#16), decide (w &&& 0xF800#16 = 0x9000#16),
     decide (w &&& 0xF800#16 = 0xA000#16)].count true ≤ 1)

/-- R72: the byte operand is `w[7:0]`; the sequence operand is the low bytes of the `w[10:0]` words after the header. -/
def Obligations.OperandsAreAssembledFromTheWords : Prop :=
  ∀ (w : Word) (ws : List Word),
    (w &&& 0xFF00#16 = 0x2000#16 → decode (w :: ws) = .ok (.crcUpdate (w.extractLsb' 0 8), ws)) ∧
    (w &&& 0xFF00#16 = 0x8000#16 → decode (w :: ws) = .ok (.decFeed (w.extractLsb' 0 8), ws)) ∧
    (∀ n : Nat, n = (w.extractLsb' 0 11).toNat → n ≤ ws.length → (∀ x ∈ ws.take n, x.extractLsb' 8 8 = 0#8) →
      (w &&& 0xF800#16 = 0x9000#16 →
        decode (w :: ws) = .ok (.decFeedChunk ((ws.take n).map fun x => x.extractLsb' 0 8), ws.drop n)) ∧
      (w &&& 0xF800#16 = 0xA000#16 →
        decode (w :: ws) = .ok (.encFrame ((ws.take n).map fun x => x.extractLsb' 0 8), ws.drop n)))

/-- R73: a command's length is known from the header: one word for the `C0` and `C8` opcodes, `1 + w[10:0]` words for the
`CN` opcodes. -/
def Obligations.LengthIsKnownFromTheHeader : Prop :=
  ∀ (w : Word) (ws : List Word) (i : Instr) (rest : List Word), decode (w :: ws) = .ok (i, rest) →
    (w.extractLsb' 12 4 ∈ [0x1#4, 0x2#4, 0x3#4, 0x4#4, 0x8#4] → rest = ws) ∧
    (w.extractLsb' 12 4 ∈ [0x9#4, 0xA#4] →
      (w.extractLsb' 0 11).toNat ≤ ws.length ∧ rest = ws.drop (w.extractLsb' 0 11).toNat) ∧
    w.extractLsb' 12 4 ∈ [0x1#4, 0x2#4, 0x3#4, 0x4#4, 0x8#4, 0x9#4, 0xA#4]

/-- R75: reserved opcodes and nonzero must-be-zero header bits are refused. The rule states the refusal; the names
`reservedOpcode` and `mustBeZero` with the word, and the outcome refused as the mark of R78, are the model's choice (log
entries 10 and 5). -/
def Obligations.IllegalHeaderWordsAreRefused : Prop :=
  ∀ (s : State) (w : Word) (ws : List Word), s.stream = w :: ws →
    (w.extractLsb' 12 4 ∈ [0x0#4, 0x5#4, 0x6#4, 0x7#4, 0xB#4, 0xC#4, 0xD#4, 0xE#4, 0xF#4] →
      step s = .refused (.illegalCommand (.reservedOpcode w))) ∧
    (w.extractLsb' 12 4 ∈ [0x1#4, 0x3#4, 0x4#4] → w.extractLsb' 0 12 ≠ 0#12 →
      step s = .refused (.illegalCommand (.mustBeZero w))) ∧
    (w.extractLsb' 12 4 ∈ [0x2#4, 0x8#4] → w.extractLsb' 8 4 ≠ 0#4 →
      step s = .refused (.illegalCommand (.mustBeZero w))) ∧
    (w.extractLsb' 12 4 ∈ [0x9#4, 0xA#4] → w.getLsbD 11 = true →
      step s = .refused (.illegalCommand (.mustBeZero w)))

/-- R76: a data word with any of its bits 15..8 set, or a stream that ends too early, refuses the whole command. The rule
states the refusal; the names `truncated` and `badDataWord`, and that words not yet on the port are a stream that ended, are
the model's choice (log entry 10), and so is the outcome refused as the mark of R78 (log entry 5). -/
def Obligations.IllegalOrMissingDataWordsAreRefused : Prop :=
  ∀ (s : State) (w : Word) (ws : List Word), s.stream = w :: ws →
    (w &&& 0xF800#16 = 0x9000#16 ∨ w &&& 0xF800#16 = 0xA000#16) →
    (ws.length < (w.extractLsb' 0 11).toNat ∨ ∃ x ∈ ws.take (w.extractLsb' 0 11).toNat, x.extractLsb' 8 8 ≠ 0#8) →
    step s = .refused (.illegalCommand .truncated) ∨ ∃ x, step s = .refused (.illegalCommand (.badDataWord x))

/-- The converse over the whole machine (R190, R192): a step never faults, and it refuses only an illegal command or an
`ENC_FRAME` longer than `MAX_PAYLOAD`. -/
def Obligations.OnlyIllegalOrOverlongCommandsAreRefused : Prop :=
  ∀ s : State,
    (∀ f, step s ≠ .fault f) ∧
    (∀ r, step s = .refused r →
      (∃ e, r = .illegalCommand e ∧ s.stream ≠ [] ∧ decode s.stream = .error e) ∨
      (r = .encTooLong ∧ ∃ p rest, decode s.stream = .ok (.encFrame p, rest) ∧ s.cfg.maxPayload < p.length))

/-- Words of section 2.6 of spec/95_test_vectors.md and of R81, one command of each family, decode as the spec says; and
two words that R75 makes illegal are not decoded, under the reason names `reservedOpcode` and `mustBeZero`, which are the
model's choice (log entry 10). -/
def Obligations.SpecWordsDecode : Prop :=
  decode [0x1000#16] = .ok (.crcReset, []) ∧ decode [0x20FF#16] = .ok (.crcUpdate 0xFF#8, []) ∧
  decode [0x3000#16, 0x4000#16] = .ok (.crcValue, [0x4000#16]) ∧ decode [0x4000#16] = .ok (.crcIsres, []) ∧
  decode [0x807E#16] = .ok (.decFeed 0x7E#8, []) ∧ decode [0x9000#16] = .ok (.decFeedChunk [], []) ∧
  decode [0xA002#16, 0x0001#16, 0x007E#16] = .ok (.encFrame [0x01#8, 0x7E#8], []) ∧
  decode [0x0000#16] = .error (.reservedOpcode 0x0000#16) ∧ decode [0x9800#16] = .error (.mustBeZero 0x9800#16)

/-! ## Assembler -/

/-- R81: each worked spelling is the line it shows, and the line's words are the words it shows. -/
def Obligations.WorkedEncodingsAssemble : Prop :=
  (parseLine ['c', 'r', 'c', '.', 'u', 'p', 'd', 'a', 't', 'e', ' ', '0', 'x', '3', '1'] =
      .line (.crcUpdate 0x31#8) ∧ assembleLine (.crcUpdate 0x31#8) = some [0x2031#16]) ∧
  (parseLine ['d', 'e', 'c', '.', 'f', 'e', 'e', 'd', ' ', '0', 'x', '7', 'E'] = .line (.decFeed 0x7E#8) ∧
    assembleLine (.decFeed 0x7E#8) = some [0x807E#16]) ∧
  (parseLine ['c', 'r', 'c', '.', 'i', 's', 'r', 'e', 's'] = .line .crcIsres ∧
    assembleLine .crcIsres = some [0x4000#16]) ∧
  (parseLine ['e', 'n', 'c', '.', 'f', 'r', 'a', 'm', 'e', ' ', '0', 'x', '0', '1', ',', ' ', '0', 'x', '7', 'E'] =
      .line (.encFrame [.byte 0x01#8, .byte 0x7E#8]) ∧
    assembleLine (.encFrame [.byte 0x01#8, .byte 0x7E#8]) = some [0xA002#16, 0x0001#16, 0x007E#16]) ∧
  (parseLine ['d', 'e', 'c', '.', 'f', 'e', 'e', 'd', 'n'] = .line (.decFeedn []) ∧
    assembleLine (.decFeedn []) = some [0x9000#16]) ∧
  (parseLine ['d', 'e', 'c', '.', 'f', 'e', 'e', 'd', 'n', ' ', '0', 'x', '0', '0', '*', '1', '0', '2', '5'] =
      .line (.decFeedn [.repeated 0x00#8 1025]) ∧
    assembleLine (.decFeedn [.repeated 0x00#8 1025]) = some (0x9401#16 :: List.replicate 1025 0x0000#16)) ∧
  (parseLine ['e', 'n', 'c', '.', 'f', 'r', 'a', 'm', 'e', ' ', Char.ofNat 34, 'A', 'B', Char.ofNat 34] =
      .line (.encFrame [.text [0x41#8, 0x42#8]]) ∧
    assembleLine (.encFrame [.text [0x41#8, 0x42#8]]) = some [0xA002#16, 0x0041#16, 0x0042#16])

/-- R80: `crc.updn` is one `crc.update` per byte, `crc.block` a `crc.reset` before it, `dec.feeds` one `dec.feed` per byte
with the effect of `dec.feedn`; run, the first two leave the fold of their bytes on `CRC0` and change nothing else. -/
def Obligations.PseudoInstructionsExpand : Prop :=
  ∀ (items : List AsmItem) (s : State),
    expandLine (.crcUpdn items) = (listBytes items).map .crcUpdate ∧
    expandLine (.crcBlock items) = .crcReset :: (listBytes items).map .crcUpdate ∧
    expandLine (.decFeeds items) = (listBytes items).map .decFeed ∧
    execAll (expandLine (.crcUpdn items)) s = .next { s with crc0 := crcFold s.crc0 (listBytes items) } ∧
    execAll (expandLine (.crcBlock items)) s = .next { s with crc0 := crcFold 0xFFFF#16 (listBytes items) } ∧
    execAll (expandLine (.decFeeds items)) s = execAll (expandLine (.decFeedn items)) s

/-- A line is assembled exactly when its byte list has at most 2047 bytes, and its words decode to the commands it stands for.
The bound is R79's for `dec.feedn`. R79 bounds `enc.frame` by 2047 and further by R133: that the assembler applies 2047 alone,
so that one of `MAX_PAYLOAD` + 1 to 2047 bytes is assembled and refused when it runs, is the model's choice, and so is the
bound on the lists of `crc.updn`, `crc.block` and `dec.feeds` (log entry 8). -/
def Obligations.AssembledLineDecodesToItsCommands : Prop :=
  ∀ l : AsmLine,
    ((assembleLine l).isSome = true ↔ (lineBytes l).length ≤ 2047) ∧
    ∀ ws, assembleLine l = some ws → decodeAll ws.length ws = some (expandLine l)

/-! ## The CRC16 engine -/

/-- R100: `CRC0.ACC` becomes 0xFFFF, nothing else changes, and the command is the word 0x1000. -/
def Obligations.CrcResetWritesThePreset : Prop :=
  encode .crcReset = [0x1000#16] ∧ ∀ s : State, exec .crcReset s = .next { s with crc0 := 0xFFFF#16 }

/-- R101: the accumulator after one update is the rule's formula of the accumulator before it and the byte; with the
rule's two corner cases on values and its example (the one for every `a` and `b` is an inference of the spec's and stands
in `CrcUpdateEquivalentForms`). -/
def Obligations.CrcUpdateFoldsOneByte : Prop :=
  (∀ (s : State) (d : Byte), encode (.crcUpdate d) = [0x2000#16 ||| d.setWidth 16] ∧
    exec (.crcUpdate d) s =
      .next { s with crc0 := BitVec.ofNat 16 (crcUpdateAsWritten s.crc0.toNat d.toNat) }) ∧
  crcUpdateAsWritten 0x0000 0x00 = 0x0000 ∧ crcUpdateAsWritten 0xFFFF 0x00 = 0xE1F0 ∧
  crcUpdateAsWritten 0xFFFF 0x31 = 0xC782

/-- R104, the spec's inference "Bit-exact equivalent forms of CrcUpdate": as fields, and as a shift register with
polynomial 0x1021; and R101's inference `CrcUpdate(a, b) = CrcUpdate(a ^ (b << 8), 0)`. -/
def Obligations.CrcUpdateEquivalentForms : Prop :=
  ∀ (acc : Word) (b : Byte),
    (let t : Byte := acc.extractLsb' 8 8 ^^^ b
     let x : Byte := t ^^^ (t >>> 4)
     crcUpdate acc b = (((acc.extractLsb' 0 8).setWidth 16 : Word) <<< 8) ^^^
       (((x.extractLsb' 0 4).setWidth 16 : Word) <<< 12) ^^^ ((x.setWidth 16 : Word) <<< 5) ^^^ (x.setWidth 16 : Word)) ∧
    crcUpdate acc b = shiftRegister 8 (acc ^^^ ((b.setWidth 16 : Word) <<< 8)) ∧
    crcUpdate acc b = crcUpdate (acc ^^^ ((b.setWidth 16 : Word) <<< 8)) 0#8

/-- R102: the response is the raw accumulator, repeated for a repeated command, and no state is written. -/
def Obligations.CrcValueRespondsTheAccumulator : Prop :=
  encode .crcValue = [0x3000#16] ∧
  (∀ s : State, exec .crcValue s = .next { s with resp := s.resp ++ [s.crc0] } ∧
    execAll [.crcValue, .crcValue] s = .next { s with resp := s.resp ++ [s.crc0, s.crc0] })

/-- R103: the response is 0x0001 exactly where `CRC0.ACC` is 0x1D0F, else 0x0000, and no state is written; after a reset,
and after a reset and any one byte, it is 0; with the rule's example (its inference on longer sequences stands in
`OnePairOfBytesReachesTheResidue`). -/
def Obligations.CrcIsresTellsTheResidue : Prop :=
  encode .crcIsres = [0x4000#16] ∧
  (∀ s : State, exec .crcIsres s =
    .next { s with resp := s.resp ++ [if s.crc0 = 0x1D0F#16 then 0x0001#16 else 0x0000#16] }) ∧
  execAll (expandLine (.crcBlock [.byte 0x01#8, .byte 0x0E#8, .byte 0x2E#8]) ++ [.crcIsres]) State.reset =
    .next { State.reset with crc0 := 0x1D0F#16, resp := [0x0001#16] } ∧
  (∀ s : State, execAll [.crcReset, .crcIsres] s =
    .next { s with crc0 := 0xFFFF#16, resp := s.resp ++ [0x0000#16] }) ∧
  (∀ (s : State) (d : Byte), ∃ a, execAll [.crcReset, .crcUpdate d, .crcIsres] s =
    .next { s with crc0 := a, resp := s.resp ++ [0x0000#16] })

/-- R105: a byte sequence followed by its inverted CRC, high byte first, folds from the preset to 0x1D0F. -/
def Obligations.InvertedCrcReachesTheResidue : Prop :=
  ∀ p : List Byte, crcFold 0xFFFF#16 (p ++ sentCrc p) = 0x1D0F#16

/-- R103 and R105, the spec's inferences "for every accumulator value exactly one pair of bytes leads to 0x1D0F" and "it
also holds with any 16-bit value in place of `PRESET`": after any bytes from any accumulator, the two bytes that reach the
residue are the inverted CRC, and no others; and `CRC_ISRES` says so on `CRC0`. -/
def Obligations.OnePairOfBytesReachesTheResidue : Prop :=
  (∀ (a : Word) (p : List Byte) (x y : Byte), crcFold a (p ++ [x, y]) = 0x1D0F#16 ↔
    x = (~~~crcFold a p).extractLsb' 8 8 ∧ y = (~~~crcFold a p).extractLsb' 0 8) ∧
  (∀ (s : State) (p : List Byte) (x y : Byte),
    ∃ t, execAll (.crcReset :: ((p ++ [x, y]).map .crcUpdate ++ [.crcIsres])) s = .next t ∧
      t.resp = s.resp ++ [if [x, y] = sentCrc p then 0x0001#16 else 0x0000#16])

/-- R57, the spec's inference: reads change no state and repeat their response; `CRC_RESET` is idempotent; an update and a
feed are not. -/
def Obligations.ReadsRepeatAndUpdatesDoNot : Prop :=
  (∀ s t : State, exec .crcValue s = .next t → t = { s with resp := t.resp } ∧
    ∃ r u, t.resp = s.resp ++ [r] ∧ exec .crcValue t = .next u ∧ u.resp = s.resp ++ [r, r]) ∧
  (∀ s t : State, exec .crcIsres s = .next t → t = { s with resp := t.resp } ∧
    ∃ r u, t.resp = s.resp ++ [r] ∧ exec .crcIsres t = .next u ∧ u.resp = s.resp ++ [r, r]) ∧
  (∀ s t : State, exec .crcReset s = .next t → exec .crcReset t = .next t) ∧
  (∃ (s t : State) (d : Byte), exec (.crcUpdate d) s = .next t ∧ exec (.crcUpdate d) t ≠ .next t) ∧
  (∃ (s t : State) (d : Byte), exec (.decFeed d) s = .next t ∧ exec (.decFeed d) t ≠ .next t)

/-! ## The frame encoder -/

/-- R130, with R131 and R132 inside it: the frame put out, what `TX_CRC` ends as, that nothing else changes, the refusal
beyond `MAX_PAYLOAD`, the command's words, and the rule's corner cases. -/
def Obligations.EncFrameEmitsTheFrame : Prop :=
  (∀ p : List Byte,
    encode (.encFrame p) = (0xA000#16 ||| BitVec.ofNat 16 p.length) :: p.map fun b => b.setWidth 16) ∧
  (∀ (s : State) (p : List Byte), p.length ≤ s.cfg.maxPayload →
    exec (.encFrame p) s =
      .next { s with
        txCrc := if s.cfg.crcEn = true then crcFold 0xFFFF#16 p else s.txCrc,
        frames := s.frames ++ [frameAsWritten s.cfg.crcEn p] }) ∧
  (∀ (s : State) (p : List Byte), s.cfg.maxPayload < p.length → exec (.encFrame p) s = .refused .encTooLong) ∧
  frameAsWritten true [] = [0x7E#8, 0x00#8, 0x00#8, 0x7E#8] ∧ frameAsWritten false [] = [0x7E#8, 0x7E#8] ∧
  frameAsWritten true [0x54#8] = [0x7E#8, 0x54#8, 0x04#8, 0x7D#8, 0x5E#8, 0x7E#8]

/-- R133: longer than `MAX_PAYLOAD` is refused as `ENC_TOO_LONG`; up to `MAX_PAYLOAD` the frame is put out, also for the
two lengths no decoder of the same parameters delivers with `CRC_EN = 1`. -/
def Obligations.OverlongPayloadIsRefused : Prop :=
  ∀ (s : State) (p : List Byte),
    (s.cfg.maxPayload < p.length → exec (.encFrame p) s = .refused .encTooLong) ∧
    (p.length ≤ s.cfg.maxPayload → ∃ t f, exec (.encFrame p) s = .next t ∧ t.frames = s.frames ++ [f] ∧
      (s.cfg.crcEn = true → s.cfg.maxPayload ≤ p.length + 1 → ∀ r : State, r.cfg = s.cfg → r.BetweenFrames →
        ∃ r', exec (.decFeedChunk f) r = .next r' ∧ r'.payloads = r.payloads))

/-- R134, the spec's inference from R130 and R132: the frame's length and its bounds. -/
def Obligations.FrameLengthFormula : Prop :=
  ∀ (s t : State) (p : List Byte), exec (.encFrame p) s = .next t →
    ∃ f, t.frames = s.frames ++ [f] ∧
      f.length = 2 + p.length + (if s.cfg.crcEn = true then 2 else 0) +
        ((itemsAsWritten s.cfg.crcEn p).filter fun b => b = 0x7E#8 ∨ b = 0x7D#8).length ∧
      (s.cfg.crcEn = true → p.length + 4 ≤ f.length ∧ f.length ≤ 2 * p.length + 6) ∧
      (s.cfg.crcEn = false → p.length + 2 ≤ f.length ∧ f.length ≤ 2 * p.length + 2)

/-- R135 and R84, the spec's inference: 0x7E only as the two delimiters, 0x7D only before 0x5E or 0x5D. -/
def Obligations.DelimitersStandOnlyAtTheEnds : Prop :=
  ∀ (s t : State) (p : List Byte), exec (.encFrame p) s = .next t →
    ∃ body, t.frames = s.frames ++ [0x7E#8 :: (body ++ [0x7E#8])] ∧ 0x7E#8 ∉ body ∧
      ∀ k, body[k]? = some 0x7D#8 → body[k + 1]? = some 0x5E#8 ∨ body[k + 1]? = some 0x5D#8

/-- R135, the spec's inference: the frame depends on the payload and `CRC_EN` alone, whatever commands came before. -/
def Obligations.EncoderIgnoresHistory : Prop :=
  ∀ (s s' t t' : State) (p : List Byte), s.cfg.crcEn = s'.cfg.crcEn →
    exec (.encFrame p) s = .next t → exec (.encFrame p) s' = .next t' →
    ∃ f, t.frames = s.frames ++ [f] ∧ t'.frames = s'.frames ++ [f]

/-! ## The frame decoder, one byte -/

/-- R150: the pseudocode of `DecByte` with every write, output and event. -/
def Obligations.DecFeedRunsDecByte : Prop :=
  ∀ (s : State) (d : Byte), encode (.decFeed d) = [0x8000#16 ||| d.setWidth 16] ∧
    exec (.decFeed d) s = .next (decByteAsWritten d s)

/-- R151: at a delimiter, F1 discards, F2 delivers a copy, F3 delivers nothing; all three end with the buffer empty, no
flag set and, with CRC on, a fresh `RX_CRC`, in the same step. -/
def Obligations.DelimiterEndsTheFrame : Prop :=
  ∀ s : State,
    (s.decEsc = true → exec (.decFeed 0x7E#8) s =
      .next { s with
        decEsc := false, decFail := false, decBuf := [], rxCrc := if s.cfg.crcEn = true then 0xFFFF#16 else s.rxCrc,
        events := s.events ++ [.dropEscFlag] }) ∧
    (s.decEsc = false → s.decFail = false → 3 ≤ s.decLen → (s.cfg.crcEn = true → s.rxCrc = 0x1D0F#16) →
      exec (.decFeed 0x7E#8) s =
        .next { s with
          decFail := false, decBuf := [], rxCrc := if s.cfg.crcEn = true then 0xFFFF#16 else s.rxCrc,
          payloads := s.payloads ++ [if s.cfg.crcEn = true then s.decBuf.take (s.decLen - 2) else s.decBuf],
          events := s.events ++ [.payload] }) ∧
    (s.decEsc = false → (s.decFail = true ∨ s.decLen < 3 ∨ (s.cfg.crcEn = true ∧ s.rxCrc ≠ 0x1D0F#16)) →
      ∃ es, exec (.decFeed 0x7E#8) s =
        .next { s with
          decFail := false, decBuf := [], rxCrc := if s.cfg.crcEn = true then 0xFFFF#16 else s.rxCrc,
          events := s.events ++ es })

/-- R191: which model-only event each error class records, that nothing is delivered, and that the FLAG resets the decoder,
`RX_CRC` included. The last clause for a FLAG, no event with `DEC.LEN = 0`, is the row `NONE` of R193's table (section 1 of
spec/60_exceptions.md). -/
def Obligations.DropsRecordTheirEvent : Prop :=
  (∀ s : State, ∃ t, exec (.decFeed 0x7E#8) s = .next t ∧ t.BetweenFrames ∧ RxFresh t ∧
    (s.decEsc = true → t.events = s.events ++ [.dropEscFlag] ∧ t.payloads = s.payloads) ∧
    (s.decEsc = false → s.decFail = false → 3 ≤ s.decLen → s.cfg.crcEn = true → s.rxCrc ≠ 0x1D0F#16 →
      t.events = s.events ++ [.dropCrc] ∧ t.payloads = s.payloads) ∧
    (s.decEsc = false → s.decFail = true → t.events = s.events ++ [.dropAbandoned] ∧ t.payloads = s.payloads) ∧
    (s.decEsc = false → s.decFail = false → 1 ≤ s.decLen → s.decLen ≤ 2 →
      t.events = s.events ++ [.dropShort] ∧ t.payloads = s.payloads) ∧
    (s.decEsc = false → s.decFail = false → s.decLen = 0 → t.events = s.events ∧ t.payloads = s.payloads)) ∧
  (∀ (s : State) (d : Byte), d ≠ 0x7E#8 → (d = 0x7D#8 → s.decEsc = true) → s.decFail = false →
    s.decLen = s.cfg.maxPayload →
    ∃ t, exec (.decFeed d) s = .next t ∧ t.events = s.events ++ [.overflow] ∧ t.decFail = true ∧ t.decBuf = s.decBuf)

/-- R152: an escape is neither buffered nor folded; after an escape it is the data byte 0x5D; in an abandoned frame it is
ignored. -/
def Obligations.EscapeByteIsConsumed : Prop :=
  ∀ s : State,
    (s.decEsc = false → s.decFail = false → exec (.decFeed 0x7D#8) s = .next { s with decEsc := true }) ∧
    (s.decEsc = true → s.decFail = false → s.decLen ≠ s.cfg.maxPayload →
      exec (.decFeed 0x7D#8) s =
        .next { s with
          decEsc := false, decBuf := s.decBuf ++ [0x5D#8],
          rxCrc := if s.cfg.crcEn = true then crcUpdate s.rxCrc 0x5D#8 else s.rxCrc }) ∧
    (s.decFail = true → exec (.decFeed 0x7D#8) s = .next s)

/-- R153: in an abandoned frame every byte but the delimiter is ignored, nothing changes; and `DEC.ESC` is 0 there. -/
def Obligations.AbandonedFrameIgnoresBytes : Prop :=
  (∀ (s : State) (d : Byte), d ≠ 0x7E#8 → s.decFail = true → exec (.decFeed d) s = .next s) ∧
  (∀ s : State, s.Inv → s.decFail = true → s.decEsc = false)

/-- R154: any other byte is unescaped (whatever its value), appended, and folded unless CRC is off. -/
def Obligations.DataByteIsAppendedAndFolded : Prop :=
  ∀ (s : State) (d : Byte), d ≠ 0x7E#8 → (d = 0x7D#8 → s.decEsc = true) → s.decFail = false →
    s.decLen ≠ s.cfg.maxPayload →
    exec (.decFeed d) s =
      .next { s with
        decEsc := false, decBuf := s.decBuf ++ [if s.decEsc = true then d ^^^ 0x20#8 else d],
        rxCrc :=
          if s.cfg.crcEn = true then crcUpdate s.rxCrc (if s.decEsc = true then d ^^^ 0x20#8 else d) else s.rxCrc }

/-- R155: a data byte into a full buffer is dropped, the frame abandoned, the escape cleared, `RX_CRC` reset unless CRC is
off; the next delimiter then delivers nothing; and it is the (`MAX_PAYLOAD` + 1)-th data byte, escapes not counted. -/
def Obligations.OverflowAbandonsTheFrame : Prop :=
  (∀ (s : State) (d : Byte), d ≠ 0x7E#8 → (d = 0x7D#8 → s.decEsc = true) → s.decFail = false →
    s.decLen = s.cfg.maxPayload →
    ∃ t u, exec (.decFeed d) s = .next t ∧ exec (.decFeed 0x7E#8) t = .next u ∧ u.payloads = s.payloads ∧
      t = { s with
        decEsc := false, decFail := true, rxCrc := if s.cfg.crcEn = true then 0xFFFF#16 else s.rxCrc,
        events := s.events ++ [.overflow] }) ∧
  (∀ (s : State) (u : List Byte) (v : Byte), s.BetweenFrames → u.length = s.cfg.maxPayload →
    ∃ t t', exec (.decFeedChunk (u.flatMap escapedAsWritten)) s = .next t ∧ t.decFail = false ∧
      exec (.decFeedChunk ((u ++ [v]).flatMap escapedAsWritten)) s = .next t' ∧ t'.decFail = true)

/-- R156: one byte delivers a payload exactly at a FLAG in case F2, and which payload. -/
def Obligations.PayloadDeliveredOnlyAtValidDelimiter : Prop :=
  ∀ (s t : State) (d : Byte), exec (.decFeed d) s = .next t →
    (d = 0x7E#8 ∧ s.decEsc = false ∧ s.decFail = false ∧ 3 ≤ s.decLen ∧ (s.cfg.crcEn = true → s.rxCrc = 0x1D0F#16) ∧
      t.payloads = s.payloads ++ [if s.cfg.crcEn = true then s.decBuf.take (s.decLen - 2) else s.decBuf]) ∨
    (¬(d = 0x7E#8 ∧ s.decEsc = false ∧ s.decFail = false ∧ 3 ≤ s.decLen ∧
        (s.cfg.crcEn = true → s.rxCrc = 0x1D0F#16)) ∧
      t.payloads = s.payloads)

/-- R170: every byte in every state completes in one step, with no response and no frame. -/
def Obligations.DecoderIsTotal : Prop :=
  ∀ (s : State) (d : Byte) (ds : List Byte),
    (∃ t, exec (.decFeed d) s = .next t ∧ t.resp = s.resp ∧ t.frames = s.frames) ∧
    (∃ t, exec (.decFeedChunk ds) s = .next t ∧ t.resp = s.resp ∧ t.frames = s.frames)

/-- R221, the spec's inference: a FLAG puts the decoder back to its reset values, whatever it held; and R165's: any number
of FLAG bytes between frames then deliver nothing and drop nothing. -/
def Obligations.FlagReturnsTheDecoderToReset : Prop :=
  (∀ s : State, ∃ t, exec (.decFeed 0x7E#8) s = .next t ∧ t.BetweenFrames ∧
    (s.cfg.crcEn = true → t.rxCrc = 0xFFFF#16)) ∧
  (∀ (s : State) (k : Nat), s.BetweenFrames → RxFresh s →
    exec (.decFeedChunk (List.replicate k 0x7E#8)) s = .next s)

/-! ## The frame decoder, byte sequences -/

/-- R160: a chunk is the sequence of its bytes' steps, in order, as one step; an empty chunk changes nothing; the command's
words. -/
def Obligations.ChunkIsItsByteSequence : Prop :=
  (∀ (s : State) (ds : List Byte),
    encode (.decFeedChunk ds) = (0x9000#16 ||| BitVec.ofNat 16 ds.length) :: ds.map (fun b => b.setWidth 16) ∧
    exec (.decFeedChunk ds) s = .next (ds.foldl (fun u d => decByteAsWritten d u) s) ∧
    exec (.decFeedChunk ds) s = execAll (ds.map .decFeed) s) ∧
  (∀ s : State, exec (.decFeedChunk []) s = .next s)

/-- The examples that the rules R102, R130, R150, R160 and R165 derive, each run from reset (R165's with `CRC_EN = 0`). -/
def Obligations.WorkedExamplesRun : Prop :=
  execAll (expandLine (.crcBlock [.text [0x31#8, 0x32#8, 0x33#8, 0x34#8, 0x35#8, 0x36#8, 0x37#8, 0x38#8, 0x39#8]]) ++
      [.crcValue]) State.reset =
    .next { State.reset with crc0 := 0x29B1#16, resp := [0x29B1#16] } ∧
  (∃ t, exec (.encFrame [0x01#8, 0x7E#8, 0x7D#8]) State.reset = .next t ∧
    t.frames = [[0x7E#8, 0x01#8, 0x7D#8, 0x5E#8, 0x7D#8, 0x5D#8, 0x80#8, 0x3F#8, 0x7E#8]]) ∧
  (∃ t, execAll ([0x7E#8, 0x01#8, 0x0E#8, 0x2E#8, 0x7E#8].map .decFeed) State.reset = .next t ∧
    t.payloads = [[0x01#8]]) ∧
  (∃ t, exec (.decFeedChunk
      [0x7E#8, 0x01#8, 0x0E#8, 0x2E#8, 0x7E#8, 0x7E#8, 0x41#8, 0x46#8, 0xEA#8, 0x7E#8]) State.reset = .next t ∧
    t.payloads = [[0x01#8], [0x41#8]]) ∧
  (∃ t, exec (.decFeedChunk [0x01#8, 0x02#8, 0x03#8, 0x7E#8]) (State.resetWith { crcEn := false, maxPayload := 1024 }) =
      .next t ∧
    t.payloads = [[0x01#8, 0x02#8, 0x03#8]])

/-- R161, the spec's inference: however a byte stream is cut into feeds and chunks, the result is that of one chunk. -/
def Obligations.StreamingIndependence : Prop :=
  ∀ (cmds : List Instr) (parts : List (List Byte)) (s : State), cmds.map fedBytes = parts.map some →
    execAll cmds s = exec (.decFeedChunk parts.flatten) s

/-- R53 with R84, and R150 and R154: the data bytes a decoder with room takes stand in its buffer in order, `RX_CRC` has
folded them, and nothing else has changed. -/
def Obligations.DataBytesAreBufferedInOrder : Prop :=
  ∀ (s : State) (u : List Byte), s.decEsc = false → s.decFail = false → s.decLen + u.length ≤ s.cfg.maxPayload →
    exec (.decFeedChunk (u.flatMap escapedAsWritten)) s =
      .next { s with
        decBuf := s.decBuf ++ u, rxCrc := if s.cfg.crcEn = true then crcFold s.rxCrc u else s.rxCrc }

/-- R85, the spec's inference "Escape table, complete": what the encoder's escaping makes of every byte, and that the frame
`ENC_FRAME` emits is its payload (and CRC) bytes so escaped, between the delimiters; and on receipt, after 0x7D, any byte but
FLAG stands for itself XOR 0x20, including those the encoder never escapes. -/
def Obligations.EscapedByteStandsForItsXor : Prop :=
  escapedByte 0x7E#8 = [0x7D#8, 0x5E#8] ∧ escapedByte 0x7D#8 = [0x7D#8, 0x5D#8] ∧
  (∀ b : Byte, b ≠ 0x7E#8 → b ≠ 0x7D#8 → escapedByte b = [b]) ∧
  (∀ (s : State) (p : List Byte), p.length ≤ s.cfg.maxPayload →
    ∃ t, exec (.encFrame p) s = .next t ∧
      t.frames = s.frames ++ [[0x7E#8] ++ (itemsAsWritten s.cfg.crcEn p).flatMap escapedByte ++ [0x7E#8]]) ∧
  (∀ (s : State) (b : Byte), s.decEsc = false → s.decFail = false → s.decLen < s.cfg.maxPayload → b ≠ 0x7E#8 →
    ∃ t, exec (.decFeedChunk [0x7D#8, b]) s = .next t ∧ t.decBuf = s.decBuf ++ [b ^^^ 0x20#8] ∧ t.decEsc = false)

/-- R162, the spec's inference "Delivery characterisation", both modes: from between frames, wire bytes without FLAG and
then a FLAG deliver exactly when no escape is pending, 3 to `MAX_PAYLOAD` data bytes were taken and, with CRC on, the last
two are the inverted CRC of those before; and they deliver those. -/
def Obligations.DeliveryCharacterisation : Prop :=
  ∀ (s : State) (w : List Byte), s.BetweenFrames → RxFresh s → 0x7E#8 ∉ w →
    ∃ t, exec (.decFeedChunk (w ++ [0x7E#8])) s = .next t ∧
      t.payloads = s.payloads ++
        (if (dataOf false w).2 = false ∧ Deliverable s.cfg (dataOf false w).1 then [payloadOf s.cfg (dataOf false w).1]
         else [])

/-- R163, the spec's inference "Round trip": a frame of one instance fed to another with the same configuration, in any
state, delivers the payload last and leaves the decoder reset; from between frames it delivers that payload alone. -/
def Obligations.RoundTripDeliversThePayload : Prop :=
  ∀ (e s : State) (p : List Byte), e.cfg = s.cfg → RoundTrips s.cfg p →
    ∃ e' f t early, exec (.encFrame p) e = .next e' ∧ e'.frames = e.frames ++ [f] ∧
      exec (.decFeedChunk f) s = .next t ∧ t.payloads = s.payloads ++ early ++ [p] ∧ early.length ≤ 1 ∧
      (s.BetweenFrames → early = []) ∧ t.BetweenFrames ∧ RxFresh t

/-- R164, the spec's inference "Payloads that never round-trip" (90_conflicts C1, C4): they are encoded, and their frame
delivers nothing and reports nothing. -/
def Obligations.SomePayloadsNeverRoundTrip : Prop :=
  ∀ (e s : State) (p : List Byte), e.cfg = s.cfg → s.cfg.Legal → s.BetweenFrames → NeverRoundTrips s.cfg p →
    ∃ e' f t, exec (.encFrame p) e = .next e' ∧ e'.frames = e.frames ++ [f] ∧
      exec (.decFeedChunk f) s = .next t ∧ t.payloads = s.payloads ∧ t.resp = s.resp ∧ t.BetweenFrames

/-- R166, the spec's inference "Overflow recovery": one data byte too many abandons the frame, and the next well-formed
frame is delivered. -/
def Obligations.OverflowRecovery : Prop :=
  ∀ (s : State) (u p : List Byte), s.BetweenFrames → u.length = s.cfg.maxPayload + 1 → RoundTrips s.cfg p →
    ∃ t t', exec (.decFeedChunk (u.flatMap escapedAsWritten)) s = .next t ∧ t.decFail = true ∧
      t.payloads = s.payloads ∧
      exec (.decFeedChunk (frameAsWritten s.cfg.crcEn p)) t = .next t' ∧ t'.payloads = s.payloads ++ [p]

/-- R167, the spec's inference "Escape before delimiter": a lone ESC before the closing FLAG drops the frame whatever it
holds, and the decoder is reset. -/
def Obligations.EscapeBeforeDelimiterDropsTheFrame : Prop :=
  ∀ (s : State) (w : List Byte), s.BetweenFrames → 0x7E#8 ∉ w → (dataOf false w).2 = false →
    ∃ t, exec (.decFeedChunk (w ++ [0x7D#8, 0x7E#8])) s = .next t ∧ t.payloads = s.payloads ∧ t.BetweenFrames ∧
      RxFresh t

/-- R168, the spec's inference "a change of one byte of u, with its length unchanged, is always detected": of two good
decoder states whose buffers differ in one byte, at most one delivers at the next FLAG. -/
def Obligations.SingleByteChangeIsDetected : Prop :=
  ∀ (s s' t t' : State) (p q : List Byte) (b b' : Byte), s.Inv → s'.Inv → s.cfg.crcEn = true → s'.cfg = s.cfg →
    s.decBuf = p ++ b :: q → s'.decBuf = p ++ b' :: q → b ≠ b' →
    exec (.decFeed 0x7E#8) s = .next t → exec (.decFeed 0x7E#8) s' = .next t' →
    t.payloads ≠ s.payloads → t'.payloads = s'.payloads

/-- R169, the spec's inference on delivered lengths, as an invariant of every step. -/
def Obligations.DeliveredLengthsStayLegal : Prop :=
  ∀ s t : State, s.Inv → s.PayloadsOk → step s = .next t → t.PayloadsOk

/-- R228, the spec's inference on mismatched modes: a CRC-less receiver delivers the CRC bytes too; a CRC receiver takes a
CRC-less frame only where its last two bytes are the CRC of the rest, and without them. -/
def Obligations.MismatchedModes : Prop :=
  (∀ (e s : State) (p : List Byte), e.cfg.crcEn = true → s.cfg.crcEn = false → s.BetweenFrames → 1 ≤ p.length →
    p.length ≤ e.cfg.maxPayload → p.length + 2 ≤ s.cfg.maxPayload →
    ∃ e' f t, exec (.encFrame p) e = .next e' ∧ e'.frames = e.frames ++ [f] ∧
      exec (.decFeedChunk f) s = .next t ∧ t.payloads = s.payloads ++ [p ++ sentCrc p]) ∧
  (∀ (e s : State) (p : List Byte), e.cfg.crcEn = false → s.cfg.crcEn = true → s.BetweenFrames → 3 ≤ p.length →
    p.length ≤ e.cfg.maxPayload → p.length ≤ s.cfg.maxPayload →
    ∃ e' f t, exec (.encFrame p) e = .next e' ∧ e'.frames = e.frames ++ [f] ∧
      exec (.decFeedChunk f) s = .next t ∧
      t.payloads = s.payloads ++
        (if p.drop (p.length - 2) = sentCrc (p.take (p.length - 2)) then [p.take (p.length - 2)] else []))

/-- R37, R106: what the decoder does depends on its own state alone: `CRC0`, `TX_CRC`, and all that was put out before play
no part. -/
def Obligations.DecoderIgnoresTheOtherUnits : Prop :=
  ∀ (s s' t t' : State) (ds : List Byte), SameDecoder s s' →
    exec (.decFeedChunk ds) s = .next t → exec (.decFeedChunk ds) s' = .next t' →
    SameDecoder t t' ∧ ∃ ps es, t.payloads = s.payloads ++ ps ∧ t'.payloads = s'.payloads ++ ps ∧
      t.events = s.events ++ es ∧ t'.events = s'.events ++ es
end

