-- ==== Sys2Proof/Laws/Crc.lean ====
section
/-! SUPPORT. The small lemmas of the CRC16 functions: the fold over a concatenation, and the update's two halves (the
low byte of the accumulator moves up; the high byte meets the data byte). -/

namespace Sys2Proof.Machine

@[simp] theorem crcFold_nil (a : Word) : crcFold a [] = a := rfl

@[simp] theorem crcFold_cons (a : Word) (b : Byte) (s : List Byte) :
    crcFold a (b :: s) = crcFold (crcUpdate a b) s := rfl

theorem crcFold_append (a : Word) (s t : List Byte) : crcFold a (s ++ t) = crcFold (crcFold a s) t := by
  induction s generalizing a with
  | nil => rfl
  | cons b s ih => exact ih _

/-- The image of the byte that meets the high half of the accumulator (R101's `x`, and its three copies). -/
def crcMix (t : Byte) : Word :=
  let y : Word := (t ^^^ (t >>> 4)).setWidth 16
  (y <<< 12) ^^^ (y <<< 5) ^^^ y

theorem crcUpdate_eq_mix (acc : Word) (b : Byte) :
    crcUpdate acc b = (acc <<< 8) ^^^ crcMix (hiByte acc ^^^ b) := by
  have h : (acc >>> 8).setWidth 8 = hiByte acc := by
    apply BitVec.eq_of_getElem_eq; intro i hi; simp [hiByte, BitVec.getElem_extractLsb', BitVec.getLsbD]
  simp only [crcUpdate, crcMix, h]
  ac_rfl

/-! ## Halves of a word -/

theorem word_eq_of_halves {a c : Word} (h : hiByte a = hiByte c) (l : loByte a = loByte c) : a = c := by
  apply BitVec.eq_of_getElem_eq
  intro i hi
  by_cases hlt : i < 8
  · have := congrArg (fun x => x.getLsbD i) l
    simpa [loByte, hlt, BitVec.getLsbD_eq_getElem, hi] using this
  · have := congrArg (fun x => x.getLsbD (i - 8)) h
    have e : 8 + (i - 8) = i := by omega
    have k : i - 8 < 8 := by omega
    simpa [hiByte, e, k, BitVec.getLsbD_eq_getElem, hi] using this

theorem loByte_xor (a b : Word) : loByte (a ^^^ b) = loByte a ^^^ loByte b := by
  apply BitVec.eq_of_getElem_eq; intro i hi; simp [loByte]

theorem hiByte_xor (a b : Word) : hiByte (a ^^^ b) = hiByte a ^^^ hiByte b := by
  apply BitVec.eq_of_getElem_eq; intro i hi; simp [hiByte]

theorem loByte_shiftLeft (a : Word) : loByte (a <<< 8) = 0#8 := by
  apply BitVec.eq_of_getElem_eq; intro i hi; simp [loByte]; omega

theorem hiByte_shiftLeft (a : Word) : hiByte (a <<< 8) = loByte a := by
  apply BitVec.eq_of_getElem_eq; intro i hi; simp [hiByte, loByte]; omega

/-! ## The mix is linear, and its low half alone tells its argument -/

theorem crcMix_xor (t u : Byte) : crcMix (t ^^^ u) = crcMix t ^^^ crcMix u := by
  have h : (t ^^^ u) ^^^ ((t ^^^ u) >>> 4) = (t ^^^ (t >>> 4)) ^^^ (u ^^^ (u >>> 4)) := by
    rw [BitVec.ushiftRight_xor_distrib]; ac_rfl
  simp only [crcMix, h, BitVec.setWidth_xor, BitVec.shiftLeft_xor_distrib]
  ac_rfl

set_option maxRecDepth 10000 in
theorem loByte_crcMix_eq_zero : ∀ t : Byte, loByte (crcMix t) = 0#8 → t = 0#8 := by decide

theorem loByte_crcMix_injective {t u : Byte} (h : loByte (crcMix t) = loByte (crcMix u)) : t = u :=
  BitVec.xor_eq_zero_iff.1 (loByte_crcMix_eq_zero (t ^^^ u) (by rw [crcMix_xor, loByte_xor, h, BitVec.xor_self]))

theorem crcMix_injective {t u : Byte} (h : crcMix t = crcMix u) : t = u :=
  loByte_crcMix_injective (congrArg loByte h)

/-- Different bytes move one accumulator to different values. -/
theorem crcUpdate_injective_byte {a : Word} {b c : Byte} (h : crcUpdate a b = crcUpdate a c) : b = c := by
  simp only [crcUpdate_eq_mix] at h
  exact (BitVec.xor_right_inj _).1 (crcMix_injective ((BitVec.xor_right_inj _).1 h))

/-- One byte moves different accumulators to different values. -/
theorem crcUpdate_injective_acc {a c : Word} {b : Byte} (h : crcUpdate a b = crcUpdate c b) : a = c := by
  simp only [crcUpdate_eq_mix] at h
  have hl := congrArg loByte h
  rw [loByte_xor, loByte_xor, loByte_shiftLeft, loByte_shiftLeft, BitVec.zero_xor, BitVec.zero_xor] at hl
  have hm := loByte_crcMix_injective hl
  rw [hm] at h
  refine word_eq_of_halves ((BitVec.xor_left_inj _).1 hm) ?_
  have hs := congrArg hiByte ((BitVec.xor_left_inj _).1 h)
  rwa [hiByte_shiftLeft, hiByte_shiftLeft] at hs

theorem crcIsResidue_iff (a : Word) : crcIsResidue a = true ↔ a = 0x1D0F#16 := by
  simp [crcIsResidue, residue]

@[simp] theorem length_crcBytes (s : List Byte) : (crcBytes s).length = 2 := rfl

end Sys2Proof.Machine
end

