-- ==== Sys2Proof/Laws/Decode.lean ====
section
/-! SUPPORT. What the pieces of the decoder of command words do, said once. -/

namespace Sys2Proof

theorem takeBytes_zero (ws : List Word) : takeBytes 0 ws = .ok ([], ws) := rfl

theorem takeBytes_empty (n : Nat) : takeBytes (n + 1) [] = .error .truncated := rfl

theorem takeBytes_good (n : Nat) {w : Word} (ws : List Word) (h : highField w = 0#8) :
    takeBytes (n + 1) (w :: ws) =
      match takeBytes n ws with
      | .ok (bs, rest) => .ok (dataField w :: bs, rest)
      | .error e => .error e := by
  cases hr : takeBytes n ws <;> simp [takeBytes, h, hr]

theorem takeBytes_bad (n : Nat) {w : Word} (ws : List Word) (h : highField w ≠ 0#8) :
    takeBytes (n + 1) (w :: ws) = .error (.badDataWord w) := by simp [takeBytes, h]

/-- Exactly when `n` data words can be taken, and what is taken. -/
theorem takeBytes_ok_iff (n : Nat) (ws : List Word) (bs : List Byte) (rest : List Word) :
    takeBytes n ws = .ok (bs, rest) ↔
      n ≤ ws.length ∧ (∀ w ∈ ws.take n, highField w = 0#8) ∧ bs = (ws.take n).map dataField ∧ rest = ws.drop n := by
  induction n generalizing ws bs rest with
  | zero => simp [takeBytes_zero, eq_comm]
  | succ n ih =>
    cases ws with
    | nil => simp [takeBytes_empty]
    | cons w ws =>
      by_cases h : highField w = 0#8
      · rw [takeBytes_good n ws h]
        cases hk : takeBytes n ws with
        | error e =>
          constructor
          · simp
          · rintro ⟨hl, hz, -, -⟩
            have := (ih ws _ _).2 ⟨by simpa using hl, fun x hx => hz x (by simp [hx]), rfl, rfl⟩
            simp [hk] at this
        | ok v =>
          obtain ⟨bs', rest'⟩ := v
          obtain ⟨h1, h2, h3, h4⟩ := (ih ws bs' rest').1 hk
          subst h3 h4
          simp only [Except.ok.injEq, Prod.mk.injEq]
          constructor
          · rintro ⟨rfl, rfl⟩
            refine ⟨by simpa using h1, ?_, by simp, by simp⟩
            intro x hx
            rw [List.take_succ_cons] at hx
            rcases List.mem_cons.1 hx with rfl | hx
            · exact h
            · exact h2 x hx
          · rintro ⟨-, -, rfl, rfl⟩; simp
      · rw [takeBytes_bad n ws h]
        simp [h]

/-- A count that cannot be taken is refused as a truncated command or for a bad data word. -/
theorem takeBytes_error {n : Nat} {ws : List Word} {e : DecodeError} (h : takeBytes n ws = .error e) :
    e = .truncated ∨ ∃ w ∈ ws.take n, highField w ≠ 0#8 ∧ e = .badDataWord w := by
  induction n generalizing ws with
  | zero => simp [takeBytes_zero] at h
  | succ n ih =>
    cases ws with
    | nil => simp only [takeBytes_empty, Except.error.injEq] at h; exact .inl h.symm
    | cons w ws =>
      by_cases hw : highField w = 0#8
      · rw [takeBytes_good n ws hw] at h
        cases hk : takeBytes n ws with
        | ok v => simp [hk] at h
        | error e' =>
          simp only [hk, Except.error.injEq] at h
          subst h
          rcases ih hk with rfl | ⟨x, hx, hx'⟩
          · exact .inl rfl
          · exact .inr ⟨x, by simp [hx], hx'⟩
      · rw [takeBytes_bad n ws hw] at h
        simp only [Except.error.injEq] at h
        exact .inr ⟨w, by simp, hw, h.symm⟩

/-- The opcode map as one chain of tests, in its order. -/
theorem selectOpcode_eq (w : Word) : selectOpcode w =
    if w &&& 0xFFFF#16 = 0x1000#16 then some .crcReset
    else if w &&& 0xFF00#16 = 0x2000#16 then some .crcUpdate
    else if w &&& 0xFFFF#16 = 0x3000#16 then some .crcValue
    else if w &&& 0xFFFF#16 = 0x4000#16 then some .crcIsres
    else if w &&& 0xFF00#16 = 0x8000#16 then some .decFeed
    else if w &&& 0xF800#16 = 0x9000#16 then some .decFeedChunk
    else if w &&& 0xF800#16 = 0xA000#16 then some .encFrame
    else none := by
  simp only [selectOpcode, opcodeMap, List.find?, OpcodeRow.selects, beq_eq_decide]
  repeat' split
  all_goals simp_all

end Sys2Proof
end

