-- ==== Sys2Proof/Laws/State.lean ====
section
/-! SUPPORT. One lemma per field per update of State, true by definition, so that no later proof unfolds a record update;
and the value of `DEC.LEN` after the updates of the buffer. -/

namespace Sys2Proof.Machine

variable (s : State)

@[simp] theorem State.setCrc0_cfg (v : Word) : (s.setCrc0 v).cfg = s.cfg := rfl
@[simp] theorem State.setCrc0_crc0 (v : Word) : (s.setCrc0 v).crc0 = v := rfl
@[simp] theorem State.setCrc0_txCrc (v : Word) : (s.setCrc0 v).txCrc = s.txCrc := rfl
@[simp] theorem State.setCrc0_rxCrc (v : Word) : (s.setCrc0 v).rxCrc = s.rxCrc := rfl
@[simp] theorem State.setCrc0_decEsc (v : Word) : (s.setCrc0 v).decEsc = s.decEsc := rfl
@[simp] theorem State.setCrc0_decFail (v : Word) : (s.setCrc0 v).decFail = s.decFail := rfl
@[simp] theorem State.setCrc0_decBuf (v : Word) : (s.setCrc0 v).decBuf = s.decBuf := rfl
@[simp] theorem State.setCrc0_stream (v : Word) : (s.setCrc0 v).stream = s.stream := rfl
@[simp] theorem State.setCrc0_pos (v : Word) : (s.setCrc0 v).pos = s.pos := rfl
@[simp] theorem State.setCrc0_resp (v : Word) : (s.setCrc0 v).resp = s.resp := rfl
@[simp] theorem State.setCrc0_frames (v : Word) : (s.setCrc0 v).frames = s.frames := rfl
@[simp] theorem State.setCrc0_payloads (v : Word) : (s.setCrc0 v).payloads = s.payloads := rfl
@[simp] theorem State.setCrc0_events (v : Word) : (s.setCrc0 v).events = s.events := rfl

@[simp] theorem State.setTxCrc_cfg (v : Word) : (s.setTxCrc v).cfg = s.cfg := rfl
@[simp] theorem State.setTxCrc_crc0 (v : Word) : (s.setTxCrc v).crc0 = s.crc0 := rfl
@[simp] theorem State.setTxCrc_txCrc (v : Word) : (s.setTxCrc v).txCrc = v := rfl
@[simp] theorem State.setTxCrc_rxCrc (v : Word) : (s.setTxCrc v).rxCrc = s.rxCrc := rfl
@[simp] theorem State.setTxCrc_decEsc (v : Word) : (s.setTxCrc v).decEsc = s.decEsc := rfl
@[simp] theorem State.setTxCrc_decFail (v : Word) : (s.setTxCrc v).decFail = s.decFail := rfl
@[simp] theorem State.setTxCrc_decBuf (v : Word) : (s.setTxCrc v).decBuf = s.decBuf := rfl
@[simp] theorem State.setTxCrc_stream (v : Word) : (s.setTxCrc v).stream = s.stream := rfl
@[simp] theorem State.setTxCrc_pos (v : Word) : (s.setTxCrc v).pos = s.pos := rfl
@[simp] theorem State.setTxCrc_resp (v : Word) : (s.setTxCrc v).resp = s.resp := rfl
@[simp] theorem State.setTxCrc_frames (v : Word) : (s.setTxCrc v).frames = s.frames := rfl
@[simp] theorem State.setTxCrc_payloads (v : Word) : (s.setTxCrc v).payloads = s.payloads := rfl
@[simp] theorem State.setTxCrc_events (v : Word) : (s.setTxCrc v).events = s.events := rfl

@[simp] theorem State.setRxCrc_cfg (v : Word) : (s.setRxCrc v).cfg = s.cfg := rfl
@[simp] theorem State.setRxCrc_crc0 (v : Word) : (s.setRxCrc v).crc0 = s.crc0 := rfl
@[simp] theorem State.setRxCrc_txCrc (v : Word) : (s.setRxCrc v).txCrc = s.txCrc := rfl
@[simp] theorem State.setRxCrc_rxCrc (v : Word) : (s.setRxCrc v).rxCrc = if s.cfg.crcEn then v else s.rxCrc := rfl
@[simp] theorem State.setRxCrc_decEsc (v : Word) : (s.setRxCrc v).decEsc = s.decEsc := rfl
@[simp] theorem State.setRxCrc_decFail (v : Word) : (s.setRxCrc v).decFail = s.decFail := rfl
@[simp] theorem State.setRxCrc_decBuf (v : Word) : (s.setRxCrc v).decBuf = s.decBuf := rfl
@[simp] theorem State.setRxCrc_stream (v : Word) : (s.setRxCrc v).stream = s.stream := rfl
@[simp] theorem State.setRxCrc_pos (v : Word) : (s.setRxCrc v).pos = s.pos := rfl
@[simp] theorem State.setRxCrc_resp (v : Word) : (s.setRxCrc v).resp = s.resp := rfl
@[simp] theorem State.setRxCrc_frames (v : Word) : (s.setRxCrc v).frames = s.frames := rfl
@[simp] theorem State.setRxCrc_payloads (v : Word) : (s.setRxCrc v).payloads = s.payloads := rfl
@[simp] theorem State.setRxCrc_events (v : Word) : (s.setRxCrc v).events = s.events := rfl

@[simp] theorem State.setDecEsc_cfg (v : Bool) : (s.setDecEsc v).cfg = s.cfg := rfl
@[simp] theorem State.setDecEsc_crc0 (v : Bool) : (s.setDecEsc v).crc0 = s.crc0 := rfl
@[simp] theorem State.setDecEsc_txCrc (v : Bool) : (s.setDecEsc v).txCrc = s.txCrc := rfl
@[simp] theorem State.setDecEsc_rxCrc (v : Bool) : (s.setDecEsc v).rxCrc = s.rxCrc := rfl
@[simp] theorem State.setDecEsc_decEsc (v : Bool) : (s.setDecEsc v).decEsc = v := rfl
@[simp] theorem State.setDecEsc_decFail (v : Bool) : (s.setDecEsc v).decFail = s.decFail := rfl
@[simp] theorem State.setDecEsc_decBuf (v : Bool) : (s.setDecEsc v).decBuf = s.decBuf := rfl
@[simp] theorem State.setDecEsc_stream (v : Bool) : (s.setDecEsc v).stream = s.stream := rfl
@[simp] theorem State.setDecEsc_pos (v : Bool) : (s.setDecEsc v).pos = s.pos := rfl
@[simp] theorem State.setDecEsc_resp (v : Bool) : (s.setDecEsc v).resp = s.resp := rfl
@[simp] theorem State.setDecEsc_frames (v : Bool) : (s.setDecEsc v).frames = s.frames := rfl
@[simp] theorem State.setDecEsc_payloads (v : Bool) : (s.setDecEsc v).payloads = s.payloads := rfl
@[simp] theorem State.setDecEsc_events (v : Bool) : (s.setDecEsc v).events = s.events := rfl

@[simp] theorem State.setDecFail_cfg (v : Bool) : (s.setDecFail v).cfg = s.cfg := rfl
@[simp] theorem State.setDecFail_crc0 (v : Bool) : (s.setDecFail v).crc0 = s.crc0 := rfl
@[simp] theorem State.setDecFail_txCrc (v : Bool) : (s.setDecFail v).txCrc = s.txCrc := rfl
@[simp] theorem State.setDecFail_rxCrc (v : Bool) : (s.setDecFail v).rxCrc = s.rxCrc := rfl
@[simp] theorem State.setDecFail_decEsc (v : Bool) : (s.setDecFail v).decEsc = s.decEsc := rfl
@[simp] theorem State.setDecFail_decFail (v : Bool) : (s.setDecFail v).decFail = v := rfl
@[simp] theorem State.setDecFail_decBuf (v : Bool) : (s.setDecFail v).decBuf = s.decBuf := rfl
@[simp] theorem State.setDecFail_stream (v : Bool) : (s.setDecFail v).stream = s.stream := rfl
@[simp] theorem State.setDecFail_pos (v : Bool) : (s.setDecFail v).pos = s.pos := rfl
@[simp] theorem State.setDecFail_resp (v : Bool) : (s.setDecFail v).resp = s.resp := rfl
@[simp] theorem State.setDecFail_frames (v : Bool) : (s.setDecFail v).frames = s.frames := rfl
@[simp] theorem State.setDecFail_payloads (v : Bool) : (s.setDecFail v).payloads = s.payloads := rfl
@[simp] theorem State.setDecFail_events (v : Bool) : (s.setDecFail v).events = s.events := rfl

@[simp] theorem State.appendByte_cfg (v : Byte) : (s.appendByte v).cfg = s.cfg := rfl
@[simp] theorem State.appendByte_crc0 (v : Byte) : (s.appendByte v).crc0 = s.crc0 := rfl
@[simp] theorem State.appendByte_txCrc (v : Byte) : (s.appendByte v).txCrc = s.txCrc := rfl
@[simp] theorem State.appendByte_rxCrc (v : Byte) : (s.appendByte v).rxCrc = s.rxCrc := rfl
@[simp] theorem State.appendByte_decEsc (v : Byte) : (s.appendByte v).decEsc = s.decEsc := rfl
@[simp] theorem State.appendByte_decFail (v : Byte) : (s.appendByte v).decFail = s.decFail := rfl
@[simp] theorem State.appendByte_decBuf (v : Byte) : (s.appendByte v).decBuf = s.decBuf ++ [v] := rfl
@[simp] theorem State.appendByte_stream (v : Byte) : (s.appendByte v).stream = s.stream := rfl
@[simp] theorem State.appendByte_pos (v : Byte) : (s.appendByte v).pos = s.pos := rfl
@[simp] theorem State.appendByte_resp (v : Byte) : (s.appendByte v).resp = s.resp := rfl
@[simp] theorem State.appendByte_frames (v : Byte) : (s.appendByte v).frames = s.frames := rfl
@[simp] theorem State.appendByte_payloads (v : Byte) : (s.appendByte v).payloads = s.payloads := rfl
@[simp] theorem State.appendByte_events (v : Byte) : (s.appendByte v).events = s.events := rfl

@[simp] theorem State.clearBuf_cfg : (s.clearBuf).cfg = s.cfg := rfl
@[simp] theorem State.clearBuf_crc0 : (s.clearBuf).crc0 = s.crc0 := rfl
@[simp] theorem State.clearBuf_txCrc : (s.clearBuf).txCrc = s.txCrc := rfl
@[simp] theorem State.clearBuf_rxCrc : (s.clearBuf).rxCrc = s.rxCrc := rfl
@[simp] theorem State.clearBuf_decEsc : (s.clearBuf).decEsc = s.decEsc := rfl
@[simp] theorem State.clearBuf_decFail : (s.clearBuf).decFail = s.decFail := rfl
@[simp] theorem State.clearBuf_decBuf : (s.clearBuf).decBuf = [] := rfl
@[simp] theorem State.clearBuf_stream : (s.clearBuf).stream = s.stream := rfl
@[simp] theorem State.clearBuf_pos : (s.clearBuf).pos = s.pos := rfl
@[simp] theorem State.clearBuf_resp : (s.clearBuf).resp = s.resp := rfl
@[simp] theorem State.clearBuf_frames : (s.clearBuf).frames = s.frames := rfl
@[simp] theorem State.clearBuf_payloads : (s.clearBuf).payloads = s.payloads := rfl
@[simp] theorem State.clearBuf_events : (s.clearBuf).events = s.events := rfl

@[simp] theorem State.respond_cfg (v : Word) : (s.respond v).cfg = s.cfg := rfl
@[simp] theorem State.respond_crc0 (v : Word) : (s.respond v).crc0 = s.crc0 := rfl
@[simp] theorem State.respond_txCrc (v : Word) : (s.respond v).txCrc = s.txCrc := rfl
@[simp] theorem State.respond_rxCrc (v : Word) : (s.respond v).rxCrc = s.rxCrc := rfl
@[simp] theorem State.respond_decEsc (v : Word) : (s.respond v).decEsc = s.decEsc := rfl
@[simp] theorem State.respond_decFail (v : Word) : (s.respond v).decFail = s.decFail := rfl
@[simp] theorem State.respond_decBuf (v : Word) : (s.respond v).decBuf = s.decBuf := rfl
@[simp] theorem State.respond_stream (v : Word) : (s.respond v).stream = s.stream := rfl
@[simp] theorem State.respond_pos (v : Word) : (s.respond v).pos = s.pos := rfl
@[simp] theorem State.respond_resp (v : Word) : (s.respond v).resp = s.resp ++ [v] := rfl
@[simp] theorem State.respond_frames (v : Word) : (s.respond v).frames = s.frames := rfl
@[simp] theorem State.respond_payloads (v : Word) : (s.respond v).payloads = s.payloads := rfl
@[simp] theorem State.respond_events (v : Word) : (s.respond v).events = s.events := rfl

@[simp] theorem State.emitFrame_cfg (f : List Byte) : (s.emitFrame f).cfg = s.cfg := rfl
@[simp] theorem State.emitFrame_crc0 (f : List Byte) : (s.emitFrame f).crc0 = s.crc0 := rfl
@[simp] theorem State.emitFrame_txCrc (f : List Byte) : (s.emitFrame f).txCrc = s.txCrc := rfl
@[simp] theorem State.emitFrame_rxCrc (f : List Byte) : (s.emitFrame f).rxCrc = s.rxCrc := rfl
@[simp] theorem State.emitFrame_decEsc (f : List Byte) : (s.emitFrame f).decEsc = s.decEsc := rfl
@[simp] theorem State.emitFrame_decFail (f : List Byte) : (s.emitFrame f).decFail = s.decFail := rfl
@[simp] theorem State.emitFrame_decBuf (f : List Byte) : (s.emitFrame f).decBuf = s.decBuf := rfl
@[simp] theorem State.emitFrame_stream (f : List Byte) : (s.emitFrame f).stream = s.stream := rfl
@[simp] theorem State.emitFrame_pos (f : List Byte) : (s.emitFrame f).pos = s.pos := rfl
@[simp] theorem State.emitFrame_resp (f : List Byte) : (s.emitFrame f).resp = s.resp := rfl
@[simp] theorem State.emitFrame_frames (f : List Byte) : (s.emitFrame f).frames = s.frames ++ [f] := rfl
@[simp] theorem State.emitFrame_payloads (f : List Byte) : (s.emitFrame f).payloads = s.payloads := rfl
@[simp] theorem State.emitFrame_events (f : List Byte) : (s.emitFrame f).events = s.events := rfl

@[simp] theorem State.emitPayload_cfg (p : List Byte) : (s.emitPayload p).cfg = s.cfg := rfl
@[simp] theorem State.emitPayload_crc0 (p : List Byte) : (s.emitPayload p).crc0 = s.crc0 := rfl
@[simp] theorem State.emitPayload_txCrc (p : List Byte) : (s.emitPayload p).txCrc = s.txCrc := rfl
@[simp] theorem State.emitPayload_rxCrc (p : List Byte) : (s.emitPayload p).rxCrc = s.rxCrc := rfl
@[simp] theorem State.emitPayload_decEsc (p : List Byte) : (s.emitPayload p).decEsc = s.decEsc := rfl
@[simp] theorem State.emitPayload_decFail (p : List Byte) : (s.emitPayload p).decFail = s.decFail := rfl
@[simp] theorem State.emitPayload_decBuf (p : List Byte) : (s.emitPayload p).decBuf = s.decBuf := rfl
@[simp] theorem State.emitPayload_stream (p : List Byte) : (s.emitPayload p).stream = s.stream := rfl
@[simp] theorem State.emitPayload_pos (p : List Byte) : (s.emitPayload p).pos = s.pos := rfl
@[simp] theorem State.emitPayload_resp (p : List Byte) : (s.emitPayload p).resp = s.resp := rfl
@[simp] theorem State.emitPayload_frames (p : List Byte) : (s.emitPayload p).frames = s.frames := rfl
@[simp] theorem State.emitPayload_payloads (p : List Byte) : (s.emitPayload p).payloads = s.payloads ++ [p] := rfl
@[simp] theorem State.emitPayload_events (p : List Byte) : (s.emitPayload p).events = s.events := rfl

@[simp] theorem State.event_cfg (e : Event) : (s.event e).cfg = s.cfg := rfl
@[simp] theorem State.event_crc0 (e : Event) : (s.event e).crc0 = s.crc0 := rfl
@[simp] theorem State.event_txCrc (e : Event) : (s.event e).txCrc = s.txCrc := rfl
@[simp] theorem State.event_rxCrc (e : Event) : (s.event e).rxCrc = s.rxCrc := rfl
@[simp] theorem State.event_decEsc (e : Event) : (s.event e).decEsc = s.decEsc := rfl
@[simp] theorem State.event_decFail (e : Event) : (s.event e).decFail = s.decFail := rfl
@[simp] theorem State.event_decBuf (e : Event) : (s.event e).decBuf = s.decBuf := rfl
@[simp] theorem State.event_stream (e : Event) : (s.event e).stream = s.stream := rfl
@[simp] theorem State.event_pos (e : Event) : (s.event e).pos = s.pos := rfl
@[simp] theorem State.event_resp (e : Event) : (s.event e).resp = s.resp := rfl
@[simp] theorem State.event_frames (e : Event) : (s.event e).frames = s.frames := rfl
@[simp] theorem State.event_payloads (e : Event) : (s.event e).payloads = s.payloads := rfl
@[simp] theorem State.event_events (e : Event) : (s.event e).events = s.events ++ e.recorded := rfl

@[simp] theorem State.takeCommand_cfg (rest : List Word) : (s.takeCommand rest).cfg = s.cfg := rfl
@[simp] theorem State.takeCommand_crc0 (rest : List Word) : (s.takeCommand rest).crc0 = s.crc0 := rfl
@[simp] theorem State.takeCommand_txCrc (rest : List Word) : (s.takeCommand rest).txCrc = s.txCrc := rfl
@[simp] theorem State.takeCommand_rxCrc (rest : List Word) : (s.takeCommand rest).rxCrc = s.rxCrc := rfl
@[simp] theorem State.takeCommand_decEsc (rest : List Word) : (s.takeCommand rest).decEsc = s.decEsc := rfl
@[simp] theorem State.takeCommand_decFail (rest : List Word) : (s.takeCommand rest).decFail = s.decFail := rfl
@[simp] theorem State.takeCommand_decBuf (rest : List Word) : (s.takeCommand rest).decBuf = s.decBuf := rfl
@[simp] theorem State.takeCommand_stream (rest : List Word) : (s.takeCommand rest).stream = rest := rfl
@[simp] theorem State.takeCommand_pos (rest : List Word) : (s.takeCommand rest).pos = s.pos + 1 := rfl
@[simp] theorem State.takeCommand_resp (rest : List Word) : (s.takeCommand rest).resp = s.resp := rfl
@[simp] theorem State.takeCommand_frames (rest : List Word) : (s.takeCommand rest).frames = s.frames := rfl
@[simp] theorem State.takeCommand_payloads (rest : List Word) : (s.takeCommand rest).payloads = s.payloads := rfl
@[simp] theorem State.takeCommand_events (rest : List Word) : (s.takeCommand rest).events = s.events := rfl

@[simp] theorem State.placeWords_cfg (ws : List Word) : (s.placeWords ws).cfg = s.cfg := rfl
@[simp] theorem State.placeWords_crc0 (ws : List Word) : (s.placeWords ws).crc0 = s.crc0 := rfl
@[simp] theorem State.placeWords_txCrc (ws : List Word) : (s.placeWords ws).txCrc = s.txCrc := rfl
@[simp] theorem State.placeWords_rxCrc (ws : List Word) : (s.placeWords ws).rxCrc = s.rxCrc := rfl
@[simp] theorem State.placeWords_decEsc (ws : List Word) : (s.placeWords ws).decEsc = s.decEsc := rfl
@[simp] theorem State.placeWords_decFail (ws : List Word) : (s.placeWords ws).decFail = s.decFail := rfl
@[simp] theorem State.placeWords_decBuf (ws : List Word) : (s.placeWords ws).decBuf = s.decBuf := rfl
@[simp] theorem State.placeWords_stream (ws : List Word) : (s.placeWords ws).stream = ws ++ s.stream := rfl
@[simp] theorem State.placeWords_pos (ws : List Word) : (s.placeWords ws).pos = s.pos := rfl
@[simp] theorem State.placeWords_resp (ws : List Word) : (s.placeWords ws).resp = s.resp := rfl
@[simp] theorem State.placeWords_frames (ws : List Word) : (s.placeWords ws).frames = s.frames := rfl
@[simp] theorem State.placeWords_payloads (ws : List Word) : (s.placeWords ws).payloads = s.payloads := rfl
@[simp] theorem State.placeWords_events (ws : List Word) : (s.placeWords ws).events = s.events := rfl

theorem State.decLen_def : s.decLen = s.decBuf.length := rfl

@[simp] theorem State.setCrc0_decLen (v : Word) : (s.setCrc0 v).decLen = s.decLen := rfl
@[simp] theorem State.setTxCrc_decLen (v : Word) : (s.setTxCrc v).decLen = s.decLen := rfl
@[simp] theorem State.setRxCrc_decLen (v : Word) : (s.setRxCrc v).decLen = s.decLen := rfl
@[simp] theorem State.setDecEsc_decLen (v : Bool) : (s.setDecEsc v).decLen = s.decLen := rfl
@[simp] theorem State.setDecFail_decLen (v : Bool) : (s.setDecFail v).decLen = s.decLen := rfl
@[simp] theorem State.appendByte_decLen (v : Byte) : (s.appendByte v).decLen = s.decLen + 1 := by
  simp [State.decLen, State.appendByte]
@[simp] theorem State.clearBuf_decLen : (s.clearBuf).decLen = 0 := rfl
@[simp] theorem State.respond_decLen (v : Word) : (s.respond v).decLen = s.decLen := rfl
@[simp] theorem State.emitFrame_decLen (f : List Byte) : (s.emitFrame f).decLen = s.decLen := rfl
@[simp] theorem State.emitPayload_decLen (p : List Byte) : (s.emitPayload p).decLen = s.decLen := rfl
@[simp] theorem State.event_decLen (e : Event) : (s.event e).decLen = s.decLen := rfl
@[simp] theorem State.takeCommand_decLen (rest : List Word) : (s.takeCommand rest).decLen = s.decLen := rfl
@[simp] theorem State.placeWords_decLen (ws : List Word) : (s.placeWords ws).decLen = s.decLen := rfl

/-- Two states with equal fields are equal. -/
theorem State.eq_of_fields {s t : State} (h0 : s.cfg = t.cfg) (h1 : s.crc0 = t.crc0) (h2 : s.txCrc = t.txCrc) (h3 : s.rxCrc = t.rxCrc) (h4 : s.decEsc = t.decEsc) (h5 : s.decFail = t.decFail) (h6 : s.decBuf = t.decBuf) (h7 : s.stream = t.stream) (h8 : s.pos = t.pos) (h9 : s.resp = t.resp) (h10 : s.frames = t.frames) (h11 : s.payloads = t.payloads) (h12 : s.events = t.events) : s = t := by
  cases s; cases t; simp_all

end Sys2Proof.Machine
end

