-- ==== Sys2Proof/Laws/Wire.lean ====
section
/-! SUPPORT. The small lemmas of the wire's bytes: classes, escaping, and what an escaped byte stands for. -/

namespace Sys2Proof.Machine

theorem wireClass_eq_flag (d : Byte) : wireClass d = .flag ↔ d = flagByte := by
  unfold wireClass; split <;> (try split) <;> simp_all

theorem wireClass_eq_esc (d : Byte) : wireClass d = .esc ↔ d = escByte := by
  unfold wireClass; split
  · rename_i h; subst h; simp [flagByte, escByte]
  · split <;> simp_all

@[simp] theorem unescape_false (d : Byte) : unescape false d = d := rfl

@[simp] theorem unescape_true (d : Byte) : unescape true d = d ^^^ escXor := rfl

theorem needsEscape_iff (b : Byte) : needsEscape b = true ↔ b = flagByte ∨ b = escByte := by
  simp [needsEscape]

theorem escapedByte_plain {b : Byte} (h : needsEscape b = false) : escapedByte b = [b] := by
  simp [escapedByte, h]

theorem escapedByte_special {b : Byte} (h : needsEscape b = true) : escapedByte b = [escByte, b ^^^ escXor] := by
  simp [escapedByte, h]

/-- The byte sent after an escape is neither a delimiter nor an escape (R85). -/
theorem special_xor_plain {b : Byte} (h : needsEscape b = true) : b ^^^ escXor ≠ flagByte ∧ b ^^^ escXor ≠ escByte := by
  rcases (needsEscape_iff b).1 h with rfl | rfl <;> decide

/-- The receiver's XOR undoes the sender's. -/
@[simp] theorem xor_escXor_twice (b : Byte) : b ^^^ escXor ^^^ escXor = b := by
  rw [BitVec.xor_assoc, BitVec.xor_self, BitVec.xor_zero]

@[simp] theorem escapedBytes_nil : escapedBytes [] = [] := rfl

@[simp] theorem escapedBytes_cons (b : Byte) (s : List Byte) :
    escapedBytes (b :: s) = escapedByte b ++ escapedBytes s := rfl

theorem escapedBytes_append (s t : List Byte) : escapedBytes (s ++ t) = escapedBytes s ++ escapedBytes t := by
  simp [escapedBytes]

@[simp] theorem frameItems_on (s : List Byte) : frameItems true s = s ++ crcBytes s := rfl

@[simp] theorem frameItems_off (s : List Byte) : frameItems false s = s := rfl

end Sys2Proof.Machine
end

