-- ==== Sys2Proof/Laws/Decoder.lean ====
section
/-! SUPPORT. What the decoder's operations do, said once: each case of `DecByte` by its condition, what `DecByte` leaves
alone, and feeding a concatenation. -/

namespace Sys2Proof.Machine

variable (d : Byte) (s : State)

/-! ## The end of a frame -/

@[simp] theorem endFrame_cfg : (endFrame s).cfg = s.cfg := rfl
@[simp] theorem endFrame_decBuf : (endFrame s).decBuf = [] := rfl
@[simp] theorem endFrame_decFail : (endFrame s).decFail = false := rfl
@[simp] theorem endFrame_decEsc : (endFrame s).decEsc = s.decEsc := rfl
@[simp] theorem endFrame_rxCrc : (endFrame s).rxCrc = if s.cfg.crcEn then preset else s.rxCrc := rfl
@[simp] theorem endFrame_payloads : (endFrame s).payloads = s.payloads := rfl
@[simp] theorem endFrame_events : (endFrame s).events = s.events := rfl

theorem frameValid_iff :
    s.frameValid = true ↔
      s.decFail = false ∧ 3 ≤ s.decLen ∧ (s.cfg.crcEn = true → s.rxCrc = 0x1D0F#16) := by
  have h3 : minFrame = 3 := rfl
  cases hc : s.cfg.crcEn <;> simp [State.frameValid, hc, crcIsResidue_iff, h3, and_assoc]

/-! ## The cases of DecByte -/

theorem decByte_flag : decByte flagByte s = takeFlag s := rfl

theorem takeFlag_escaped (h : s.decEsc = true) :
    takeFlag s = endFrame ((s.setDecEsc false).event .dropEscFlag) := by simp [takeFlag, h]

theorem takeFlag_valid (h : s.decEsc = false) (hv : s.frameValid = true) :
    takeFlag s = endFrame ((s.emitPayload s.framePayload).event .payload) := by simp [takeFlag, h, hv]

theorem takeFlag_dropped (h : s.decEsc = false) (hv : s.frameValid = false) :
    takeFlag s = endFrame (s.event s.dropReason) := by simp [takeFlag, h, hv]

theorem decByte_esc (h : s.decEsc = false) (hf : s.decFail = false) : decByte escByte s = takeEsc s := by
  simp [decByte, (wireClass_eq_esc escByte).2 rfl, h, hf]

theorem decByte_ignored (hd : d ≠ flagByte) (hf : s.decFail = true) : decByte d s = s := by
  simp [decByte, mt (wireClass_eq_flag d).1 hd, hf]

theorem decByte_data (hd : d ≠ flagByte) (he : d = escByte → s.decEsc = true) (hf : s.decFail = false) :
    decByte d s = takeData d s := by
  have h1 := mt (wireClass_eq_flag d).1 hd
  have h2 : ¬(wireClass d = .esc ∧ s.decEsc = false ∧ s.decFail = false) := by
    rintro ⟨hc, hn, -⟩
    have := he ((wireClass_eq_esc d).1 hc)
    simp_all
  rw [decByte, if_neg h1, if_neg h2, if_neg (by simp [hf])]

theorem takeData_fits (h : s.decLen ≠ s.cfg.maxPayload) :
    takeData d s = ((s.setDecEsc false).appendByte (unescape s.decEsc d)).setRxCrc
      (crcUpdate s.rxCrc (unescape s.decEsc d)) := by simp [takeData, h]

theorem takeData_overflows (h : s.decLen = s.cfg.maxPayload) :
    takeData d s = takeOverflow (s.setDecEsc false) := by simp [takeData, h]

/-- Everything one byte can do: a delimiter, an escape, an ignored byte, an overflow, or a data byte taken. -/
theorem decByte_cases :
    (d = flagByte ∧ decByte d s = takeFlag s) ∨
    (d = escByte ∧ s.decEsc = false ∧ s.decFail = false ∧ decByte d s = takeEsc s) ∨
    (d ≠ flagByte ∧ s.decFail = true ∧ decByte d s = s) ∨
    (d ≠ flagByte ∧ (d = escByte → s.decEsc = true) ∧ s.decFail = false ∧ s.decLen = s.cfg.maxPayload ∧
      decByte d s = takeOverflow (s.setDecEsc false)) ∨
    (d ≠ flagByte ∧ (d = escByte → s.decEsc = true) ∧ s.decFail = false ∧ s.decLen ≠ s.cfg.maxPayload ∧
      decByte d s = ((s.setDecEsc false).appendByte (unescape s.decEsc d)).setRxCrc
        (crcUpdate s.rxCrc (unescape s.decEsc d))) := by
  by_cases hd : d = flagByte
  · subst hd; exact .inl ⟨rfl, decByte_flag s⟩
  cases hf : s.decFail with
  | true => exact .inr (.inr (.inl ⟨hd, rfl, decByte_ignored d s hd hf⟩))
  | false =>
    by_cases he : d = escByte → s.decEsc = true
    · have hk := decByte_data d s hd he hf
      by_cases hl : s.decLen = s.cfg.maxPayload
      · exact .inr (.inr (.inr (.inl ⟨hd, he, rfl, hl, hk.trans (takeData_overflows d s hl)⟩)))
      · exact .inr (.inr (.inr (.inr ⟨hd, he, rfl, hl, hk.trans (takeData_fits d s hl)⟩)))
    · obtain ⟨rfl, hn⟩ := Classical.not_imp.1 he
      have hn : s.decEsc = false := by simpa using hn
      exact .inr (.inl ⟨rfl, hn, rfl, decByte_esc s hn hf⟩)

/-! ## What the decoder leaves alone -/

/-- The elements `DecByte` never writes (R22, R37). -/
structure SameOutsideDecoder (s t : State) : Prop where
  cfg : t.cfg = s.cfg
  crc0 : t.crc0 = s.crc0
  txCrc : t.txCrc = s.txCrc
  stream : t.stream = s.stream
  pos : t.pos = s.pos
  resp : t.resp = s.resp
  frames : t.frames = s.frames

theorem decByte_frame : SameOutsideDecoder s (decByte d s) := by
  rcases decByte_cases d s with ⟨-, h⟩ | ⟨-, -, -, h⟩ | ⟨-, -, h⟩ | ⟨-, -, -, -, h⟩ | ⟨-, -, -, -, h⟩ <;> rw [h]
  · unfold takeFlag
    split
    · constructor <;> rfl
    · split <;> constructor <;> rfl
  all_goals constructor <;> rfl

@[simp] theorem decByte_cfg : (decByte d s).cfg = s.cfg := (decByte_frame d s).cfg

/-! ## Sequences -/

@[simp] theorem decBytes_nil : decBytes [] s = s := rfl

@[simp] theorem decBytes_cons (ds : List Byte) : decBytes (d :: ds) s = decBytes ds (decByte d s) := rfl

theorem decBytes_append (as bs : List Byte) (s : State) : decBytes (as ++ bs) s = decBytes bs (decBytes as s) := by
  induction as generalizing s with
  | nil => rfl
  | cons a as ih => exact ih _

theorem decBytes_frame (ds : List Byte) (s : State) : SameOutsideDecoder s (decBytes ds s) := by
  induction ds generalizing s with
  | nil => constructor <;> rfl
  | cons d ds ih =>
    have h := decByte_frame d s
    have k := ih (decByte d s)
    exact ⟨k.1.trans h.1, k.2.trans h.2, k.3.trans h.3, k.4.trans h.4, k.5.trans h.5, k.6.trans h.6, k.7.trans h.7⟩

@[simp] theorem decBytes_cfg (ds : List Byte) : (decBytes ds s).cfg = s.cfg := (decBytes_frame ds s).cfg

/-- Feeding a sequence is invariant-preserving where feeding one byte is. -/
theorem decBytes_induction {P : State → Prop} (step : ∀ d s, P s → P (decByte d s)) (ds : List Byte) :
    ∀ s, P s → P (decBytes ds s) := by
  induction ds with
  | nil => exact fun _ h => h
  | cons d ds ih => exact fun s h => ih _ (step d s h)

end Sys2Proof.Machine
end

