-- ==== Sys2Proof/Laws/PerInstr.lean ====
section
/-! SUPPORT. Statements about every command, one lemma per constructor: the number of words a command is written in
(spec/30_encoding.md R71, R73). -/

namespace Sys2Proof.Laws.EncodedLength

/-- A command is written in one word, or in one word and a word for each byte of its sequence. -/
def Statement (i : Instr) : Prop :=
  (encode i).length = match i with
    | .decFeedChunk s => 1 + s.length
    | .encFrame s => 1 + s.length
    | _ => 1

theorem crcReset : Statement .crcReset := rfl

theorem crcUpdate (d : Byte) : Statement (.crcUpdate d) := rfl

theorem crcValue : Statement .crcValue := rfl

theorem crcIsres : Statement .crcIsres := rfl

theorem decFeed (d : Byte) : Statement (.decFeed d) := rfl

theorem decFeedChunk (s : List Byte) : Statement (.decFeedChunk s) := by
  simp [Statement, encode, encodeCounted, Nat.add_comm]

theorem encFrame (s : List Byte) : Statement (.encFrame s) := by
  simp [Statement, encode, encodeCounted, Nat.add_comm]

end Sys2Proof.Laws.EncodedLength
end

