-- ==== Sys2Proof/Laws/Step.lean ====
section
/-! SUPPORT. What a meaning and a step can do, said once. -/

namespace Sys2Proof.Machine

@[simp] theorem runTxCrc_cfg (p : List Byte) (s : State) : (runTxCrc p s).cfg = s.cfg := by
  unfold runTxCrc; split <;> rfl

/-- What step 1 of the encoder writes: `TX_CRC` alone, and only with CRC on. -/
theorem runTxCrc_eq (p : List Byte) (s : State) :
    runTxCrc p s = { s with txCrc := if s.cfg.crcEn then crcFold preset p else s.txCrc } := by
  unfold runTxCrc; split <;> rfl

/-- Every way a meaning answers a next state. -/
theorem exec_cases {i : Instr} {s t : State} (h : exec i s = .next t) :
    (i = .crcReset ∧ t = s.setCrc0 preset) ∨
    (∃ d, i = .crcUpdate d ∧ t = s.setCrc0 (crcUpdate s.crc0 d)) ∨
    (i = .crcValue ∧ t = s.respond s.crc0) ∨
    (i = .crcIsres ∧ t = s.respond (if crcIsResidue s.crc0 then 0x0001#16 else 0x0000#16)) ∨
    (∃ d, i = .decFeed d ∧ t = decByte d s) ∨
    (∃ ds, i = .decFeedChunk ds ∧ t = decBytes ds s) ∨
    (∃ p, i = .encFrame p ∧ p.length ≤ s.cfg.maxPayload ∧
      t = (runTxCrc p s).emitFrame (frameOf s.cfg.crcEn p)) := by
  cases i with
  | crcReset => cases h; simp
  | crcUpdate d => cases h; simp
  | crcValue => cases h; simp
  | crcIsres => cases h; simp
  | decFeed d => cases h; simp
  | decFeedChunk ds => cases h; simp
  | encFrame p =>
    simp only [exec, execEncFrame] at h
    split at h
    · cases h
    · cases h; simp; omega

/-- The one refusal of a meaning (R133). -/
theorem exec_refused {i : Instr} {s : State} {r : Refusal} (h : exec i s = .refused r) :
    ∃ p, i = .encFrame p ∧ s.cfg.maxPayload < p.length ∧ r = .encTooLong := by
  cases i with
  | encFrame p =>
    simp only [exec, execEncFrame] at h
    split at h
    · cases h; exact ⟨p, rfl, ‹_›, rfl⟩
    · cases h
  | _ => cases h

/-- Every way a step answers a next state: nothing waits, or a command is taken and its meaning answers one. -/
theorem step_cases {s t : State} (h : step s = .next t) :
    (s.stream = [] ∧ t = s) ∨
    ∃ i rest, decode s.stream = .ok (i, rest) ∧ exec i (s.takeCommand rest) = .next t := by
  unfold step at h
  split at h
  · rename_i hf
    cases h
    unfold fetch at hf
    split at hf
    · exact .inl ⟨‹_›, rfl⟩
    · split at hf <;> cases hf
  · rename_i i rest hf
    unfold fetch at hf
    split at hf
    · cases hf
    · rename_i w ws hs
      split at hf
      · rename_i i' rest' hd
        cases hf
        exact .inr ⟨i, rest, by rw [hs]; exact hd, h⟩
      · cases hf
  · cases h

end Sys2Proof.Machine
end

