-- ==== Sys2Proof/Tests/Slice0.lean ====
section
/-! SUPPORT. The package's own tests: ill-formed commands, words written out bit by bit from spec/30_encoding.md R71 and R74,
single steps with expected values from spec/95_test_vectors.md and the rules' examples, and for every statement with
hypotheses a concrete case that meets them. -/

namespace Sys2Proof.Tests

open Sys2Proof Sys2Proof.Machine Sys2Proof.Claims

/-- A small state: an instance, its decoder's flags, accumulator and buffer; the rest as after reset. -/
def decoderState (crcEn : Bool) (cap : Nat) (esc fail : Bool) (rx : Word) (buf : List Byte) : State :=
  { State.resetWith { crcEn := crcEn, maxPayload := cap } with decEsc := esc, decFail := fail, rxCrc := rx, decBuf := buf }

/-- Reset with words on the command port. -/
def withStream (ws : List Word) : State := { State.reset with stream := ws }

/-- A test of one field of the next state. -/
def after {α : Type} (i : Instr) (s : State) (f : State → α) : Option α := (nextState (exec i s)).map f

/-! ## Well-formedness -/

theorem test_wf_chunk_too_long : Instr.wf (.decFeedChunk (List.replicate 2048 0#8)) = false := by
  simp only [Instr.wf, List.length_replicate]; decide

theorem test_wf_frame_too_long : Instr.wf (.encFrame (List.replicate 2048 0#8)) = false := by
  simp only [Instr.wf, List.length_replicate]; decide

theorem test_wf_longest : Instr.wf (.decFeedChunk (List.replicate 2047 0#8)) = true := by
  simp only [Instr.wf, List.length_replicate]; decide

/-! ## Words written out bit by bit: op 15..12, must-be-zero bits, operand -/

theorem test_decode_crcReset : decode [0b0001_000000000000#16] = .ok (.crcReset, []) := by decide

theorem test_decode_crcUpdate : decode [0b0010_0000_00110001#16] = .ok (.crcUpdate 0x31#8, []) := by decide

theorem test_decode_crcValue : decode [0b0011_000000000000#16] = .ok (.crcValue, []) := by decide

theorem test_decode_crcIsres : decode [0b0100_000000000000#16] = .ok (.crcIsres, []) := by decide

theorem test_decode_decFeed : decode [0b1000_0000_01111110#16] = .ok (.decFeed 0x7E#8, []) := by decide

theorem test_decode_decFeedChunk :
    decode [0b1001_0_00000000010#16, 0b00000000_01000001#16, 0b00000000_01000110#16, 0x1000#16] =
      .ok (.decFeedChunk [0x41#8, 0x46#8], [0x1000#16]) := by decide

theorem test_decode_encFrame :
    decode [0b1010_0_00000000010#16, 0b00000000_00000001#16, 0b00000000_01111110#16] =
      .ok (.encFrame [0x01#8, 0x7E#8], []) := by decide

/-- R75: bits 11..8 of a `C8` header, and bit 11 of a `CN` header, must be zero. -/
theorem test_decode_must_be_zero :
    decode [0x2100#16] = .error (.mustBeZero 0x2100#16) ∧ decode [0xA800#16] = .error (.mustBeZero 0xA800#16) := by
  decide

/-- R76, section 2.6 of spec/95_test_vectors.md. -/
theorem test_decode_bad_data :
    decode [0xA001#16, 0x0100#16] = .error (.badDataWord 0x0100#16) ∧
      decode [0x9002#16, 0x0001#16] = .error .truncated := by decide

theorem test_encode_counts :
    encode (.decFeedChunk [0x7E#8, 0x01#8]) = [0x9002#16, 0x007E#16, 0x0001#16] ∧
      encode (.encFrame [0x41#8, 0x42#8]) = [0xA002#16, 0x0041#16, 0x0042#16] := by decide

theorem test_table_word_chunk_of_zeros : decodeTableWord 16 0x9002 = some (.decFeedChunk [0#8, 0#8]) := by decide

theorem test_fetch_word_runs_first :
    (nextState (step (State.reset.withFetchWord 16 0x2031))).map (fun t => (t.crc0, t.pos, t.stream)) =
      some (0xC782#16, 1, []) := by decide

/-! ## One command each: spec/95_test_vectors.md sections 2.1 to 2.4 and the rules' examples -/

theorem test_crcReset : after .crcReset { State.reset with crc0 := 0x1D0F#16 } (·.crc0) = some 0xFFFF#16 := by decide

theorem test_crcUpdate_mixed : after (.crcUpdate 0x56#8) { State.reset with crc0 := 0x1234#16 } (·.crc0) = some 0x3C40#16 := by
  decide

theorem test_crcUpdate_high_bit : after (.crcUpdate 0x00#8) { State.reset with crc0 := 0x8000#16 } (·.crc0) = some 0x9188#16 := by
  decide

theorem test_crcValue_raw : after .crcValue { State.reset with crc0 := 0x29B1#16 } (·.resp) = some [0x29B1#16] := by decide

theorem test_crcIsres_true : after .crcIsres { State.reset with crc0 := 0x1D0F#16 } (·.resp) = some [0x0001#16] := by decide

theorem test_crcIsres_after_reset : after .crcIsres State.reset (·.resp) = some [0x0000#16] := by decide

/-- V5's last byte: the buffer passes the residue, but the FLAG follows an escape. -/
theorem test_decFeed_escape_then_flag :
    after (.decFeed 0x7E#8) (decoderState true 1024 true false 0x1D0F#16 [0x01#8, 0x0E#8, 0x2E#8])
      (fun t => (t.payloads, t.events, t.decLen)) = some ([], [.dropEscFlag], 0) := by decide

/-- V23: the escaped byte is the one that overflows (capacity 4). -/
theorem test_decFeed_escaped_overflow :
    after (.decFeed 0x5E#8) (decoderState true 4 true false 0xE5F1#16 [0#8, 1#8, 2#8, 3#8])
      (fun t => (t.decEsc, t.decFail, t.decLen, t.rxCrc, t.events)) = some (false, true, 4, 0xFFFF#16, [.overflow]) := by
  decide

/-- R160's example. -/
theorem test_decFeedChunk_two_frames :
    after (.decFeedChunk [0x7E#8, 0x01#8, 0x0E#8, 0x2E#8, 0x7E#8, 0x7E#8, 0x41#8, 0x46#8, 0xEA#8, 0x7E#8]) State.reset
      (·.payloads) = some [[0x01#8], [0x41#8]] := by decide

/-- V24: capacity 4, the fifth byte overflows. -/
theorem test_decFeedChunk_overflow :
    after (.decFeedChunk [0x7E#8, 0x01#8, 0x0E#8, 0x2E#8, 0x7E#8, 0x7E#8, 0#8, 1#8, 2#8, 3#8, 4#8, 0x7E#8])
      (State.resetWith { crcEn := true, maxPayload := 4 }) (fun t => (t.payloads, t.events)) =
      some ([[0x01#8]], [.payload, .overflow, .dropAbandoned]) := by decide

/-- Section 2.3: both CRC bytes are escaped. -/
theorem test_encFrame_crc_escaped :
    after (.encFrame [0x0A#8, 0x8E#8]) State.reset (·.frames) =
      some [[0x7E#8, 0x0A#8, 0x8E#8, 0x7D#8, 0x5D#8, 0x7D#8, 0x5D#8, 0x7E#8]] := by decide

/-- R133 with capacity 4. -/
theorem test_encFrame_too_long :
    refusalOf (exec (.encFrame [0#8, 1#8, 2#8, 3#8, 4#8]) (State.resetWith { crcEn := true, maxPayload := 4 })) =
      some .encTooLong := by decide

theorem test_step_takes_one_command :
    (nextState (step (withStream [0xA001#16, 0x0001#16, 0x3000#16]))).map (fun t => (t.stream, t.pos, t.txCrc, t.crc0)) =
      some ([0x3000#16], 1, 0xF1D1#16, 0xFFFF#16) := by decide

theorem test_step_refuses_reserved :
    refusalOf (step (withStream [0x5000#16])) = some (.illegalCommand (.reservedOpcode 0x5000#16)) := by decide

/-- R79: a comment, a repetition and a string holding a comma and a semicolon. -/
theorem test_parse_items :
    parseLine ['e', 'n', 'c', '.', 'f', 'r', 'a', 'm', 'e', ' ', '7', '*', '2', ',', Char.ofNat 34, ',', ';',
        Char.ofNat 34, ' ', ';', 'x'] = .line (.encFrame [.repeated 7#8 2, .text [0x2C#8, 0x3B#8]]) := by decide

theorem test_parse_rejects :
    parseLine ['c', 'r', 'c', '.', 'u', 'p', 'd', 'a', 't', 'e', ' ', '2', '5', '6'] = .rejected ∧
      parseLine ['C', 'r', 'c', '.', 'v', 'a', 'l', 'u', 'e'] = .rejected := by decide

/-! ## Every statement with hypotheses has a case that meets them -/

theorem test_witness_ResetLeavesTheStatedValues_least_capacity : (Cfg.mk true 3).Legal := by decide

theorem test_witness_ResetLeavesTheStatedValues_most_capacity : (Cfg.mk false 2047).Legal := by decide

theorem test_witness_EveryStepKeepsTheInvariants :
    ({ decoderState true 4 false true 0xFFFF#16 [0#8, 1#8, 2#8, 3#8] with stream := [0x807E#16] } : State).Inv ∧
      (nextState (step { decoderState true 4 false true 0xFFFF#16 [0#8, 1#8, 2#8, 3#8] with stream := [0x807E#16] })).isSome = true := by
  decide

theorem test_witness_EveryReachableStateHasTheInvariants :
    Reachable Cfg.thisHardware (withStream [0x1000#16]) ∧ Cfg.thisHardware.Legal :=
  ⟨.hostWrites State.reset [0x1000#16] .reset, by decide⟩

theorem test_witness_StepRunsTheDecodedCommand :
    decode (withStream [0x2031#16, 0x3000#16]).stream = .ok (.crcUpdate 0x31#8, [0x3000#16]) := by decide

theorem test_witness_IdleStepHoldsTheState : State.reset.stream = [] := by decide

theorem test_witness_PositionAdvancesByOneCommand :
    (withStream [0x9001#16, 0x0001#16]).stream ≠ [] ∧ (nextState (step (withStream [0x9001#16, 0x0001#16]))).isSome = true := by
  decide

theorem test_witness_CommandStreamRunsInOrder :
    ∀ i ∈ [Instr.crcReset, .decFeedChunk [0x7E#8], .encFrame [], .crcValue], i.wf = true := by decide

theorem test_witness_OutputsOnlyGrow :
    (nextState (step (withStream [0xA000#16]))).map (fun t => (t.frames, t.stream)) =
      some ([[0x7E#8, 0x00#8, 0x00#8, 0x7E#8]], []) := by decide

theorem test_witness_EachCommandLeavesTheRestUnchanged : ∃ t, exec (.encFrame [0x01#8]) State.reset = .next t :=
  ⟨_, rfl⟩

theorem test_witness_DecodeOfEncodeIsIdentity : Instr.wf (.encFrame [0x7D#8]) = true := by decide

theorem test_witness_DecodedWordsAreTheEncoding : decode [0x97FF#16] = .error .truncated ∧
    decode [0x9001#16, 0x00FF#16, 0x0000#16] = .ok (.decFeedChunk [0xFF#8], [0x0000#16]) := by decide

theorem test_witness_HeaderWordSelectsItsRow : decode [0x20FF#16] = .ok (.crcUpdate 0xFF#8, []) ∧
    (0x20FF#16 : Word) &&& 0xFF00#16 = 0x2000#16 := by decide

theorem test_witness_OperandsAreAssembledFromTheWords_byte : (0x8000#16 : Word) &&& 0xFF00#16 = 0x8000#16 ∧
    (0x20FF#16 : Word) &&& 0xFF00#16 = 0x2000#16 := by decide

theorem test_witness_OperandsAreAssembledFromTheWords_counted :
    (1 = ((0x9001#16 : Word).extractLsb' 0 11).toNat) ∧ ([0x00FF#16].take 1).all (fun x : Word => x.extractLsb' 8 8 == 0#8) ∧
      (0x9001#16 : Word) &&& 0xF800#16 = 0x9000#16 ∧ (0xA000#16 : Word) &&& 0xF800#16 = 0xA000#16 ∧
      (0 = ((0xA000#16 : Word).extractLsb' 0 11).toNat) := by decide

theorem test_witness_LengthIsKnownFromTheHeader :
    decode [0xA001#16, 0x0000#16, 0x4000#16] = .ok (.encFrame [0x00#8], [0x4000#16]) ∧
      (0xA001#16 : Word).extractLsb' 12 4 ∈ [0x9#4, 0xA#4] ∧
      decode [0x4000#16, 0x0000#16] = .ok (.crcIsres, [0x0000#16]) ∧
      (0x4000#16 : Word).extractLsb' 12 4 ∈ [0x1#4, 0x2#4, 0x3#4, 0x4#4, 0x8#4] := by decide

theorem test_witness_IllegalHeaderWordsAreRefused :
    (0xF000#16 : Word).extractLsb' 12 4 ∈ [0x0#4, 0x5#4, 0x6#4, 0x7#4, 0xB#4, 0xC#4, 0xD#4, 0xE#4, 0xF#4] ∧
      (0x1001#16 : Word).extractLsb' 0 12 ≠ 0#12 ∧ (0x8F7E#16 : Word).extractLsb' 8 4 ≠ 0#4 ∧
      (0x9800#16 : Word).getLsbD 11 = true ∧ (0x9800#16 : Word).extractLsb' 12 4 ∈ [0x9#4, 0xA#4] := by decide

theorem test_witness_IllegalOrMissingDataWordsAreRefused :
    (0xA001#16 : Word) &&& 0xF800#16 = 0xA000#16 ∧
      (([0x0100#16] : List Word).take ((0xA001#16 : Word).extractLsb' 0 11).toNat).any (fun x => x.extractLsb' 8 8 != 0#8) ∧
      ([] : List Word).length < ((0x9001#16 : Word).extractLsb' 0 11).toNat := by decide

theorem test_witness_OnlyIllegalOrOverlongCommandsAreRefused :
    refusalOf (step { State.resetWith { crcEn := true, maxPayload := 3 } with
      stream := [0xA004#16, 0#16, 0#16, 0#16, 0#16] }) = some .encTooLong := by decide

theorem test_witness_AssembledLineDecodesToItsCommands :
    assembleLine (.crcBlock [.byte 0x01#8]) = some [0x1000#16, 0x2001#16] := by decide

theorem test_witness_EncFrameEmitsTheFrame_at_capacity :
    ([0#8, 1#8, 2#8] : List Byte).length ≤ (State.resetWith (Cfg.mk true 3)).cfg.maxPayload ∧
      (State.resetWith (Cfg.mk true 3)).cfg.maxPayload < ([0#8, 1#8, 2#8, 3#8] : List Byte).length := by decide

theorem test_witness_OverlongPayloadIsRefused :
    (State.resetWith (Cfg.mk true 3)).cfg.maxPayload ≤ ([0#8, 1#8] : List Byte).length + 1 ∧
      (State.resetWith (Cfg.mk true 3)).BetweenFrames := by decide

theorem test_witness_FrameLengthFormula : ∃ t, exec (.encFrame []) State.reset = .next t := ⟨_, rfl⟩

theorem test_witness_DelimitersStandOnlyAtTheEnds : ∃ t, exec (.encFrame [0x7E#8]) State.reset = .next t :=
  ⟨_, rfl⟩

theorem test_witness_EncoderIgnoresHistory :
    (∃ t, exec (.encFrame [0x41#8]) State.reset = .next t) ∧
      (∃ t, exec (.encFrame [0x41#8]) { State.reset with txCrc := 0#16, crc0 := 0#16 } = .next t) :=
  ⟨⟨_, rfl⟩, ⟨_, rfl⟩⟩

theorem test_witness_DelimiterEndsTheFrame_valid :
    let s := decoderState true 3 false false 0x1D0F#16 [0x01#8, 0x0E#8, 0x2E#8]
    s.decEsc = false ∧ s.decFail = false ∧ 3 ≤ s.decLen ∧ (s.cfg.crcEn = true → s.rxCrc = 0x1D0F#16) := by decide

theorem test_witness_DelimiterEndsTheFrame_others :
    (decoderState true 3 true false 0x1D0F#16 []).decEsc = true ∧
      (decoderState true 3 false false 0x1D0F#16 [0#8, 0#8]).decLen < 3 ∧
      (decoderState true 3 false true 0xFFFF#16 [0#8, 0#8, 0#8]).decFail = true ∧
      (decoderState true 3 false false 0xFFFF#16 [0#8, 0#8, 0#8]).rxCrc ≠ 0x1D0F#16 := by decide

theorem test_witness_DropsRecordTheirEvent :
    (nextState (exec (.decFeed 0x7E#8) (decoderState true 3 false false 0xFFFF#16 [0#8, 0#8, 0#8]))).map (·.events) =
        some [.dropCrc] ∧
      (nextState (exec (.decFeed 0x7E#8) (decoderState true 3 false false 0xFFFF#16 [0#8, 0#8]))).map (·.events) =
        some [.dropShort] ∧
      (nextState (exec (.decFeed 0x7E#8) (decoderState true 3 false false 0xFFFF#16 []))).map (·.events) = some [] ∧
      (nextState (exec (.decFeed 0x7E#8) (decoderState true 3 false true 0xFFFF#16 [0#8, 0#8, 0#8]))).map (·.events) =
        some [.dropAbandoned] ∧
      (nextState (exec (.decFeed 0x00#8) (decoderState true 3 false false 0xFFFF#16 [0#8, 0#8, 0#8]))).map (·.events) =
        some [.overflow] := by decide

theorem test_witness_EscapeByteIsConsumed :
    (decoderState true 3 true false 0xFFFF#16 [0#8, 0#8]).decLen ≠ 3 ∧
      (decoderState true 3 true false 0xFFFF#16 [0#8, 0#8]).decEsc = true ∧
      (decoderState true 3 false true 0xFFFF#16 [0#8, 0#8, 0#8]).decFail = true ∧ State.reset.decEsc = false := by decide

theorem test_witness_AbandonedFrameIgnoresBytes :
    (0x7D#8 : Byte) ≠ 0x7E#8 ∧ (decoderState true 3 false true 0xFFFF#16 [0#8, 0#8, 0#8]).decFail = true ∧
      (decoderState true 3 false true 0xFFFF#16 [0#8, 0#8, 0#8]).Inv := by decide

theorem test_witness_DataByteIsAppendedAndFolded :
    let s := decoderState true 3 true false 0xE1F0#16 [0#8]
    (0x7D#8 : Byte) ≠ 0x7E#8 ∧ ((0x7D#8 : Byte) = 0x7D#8 → s.decEsc = true) ∧ s.decFail = false ∧
      s.decLen ≠ s.cfg.maxPayload := by decide

theorem test_witness_OverflowAbandonsTheFrame :
    let s := decoderState true 3 true false 0xFFFF#16 [0#8, 0#8, 0#8]
    ((0x7D#8 : Byte) = 0x7D#8 → s.decEsc = true) ∧ s.decFail = false ∧ s.decLen = s.cfg.maxPayload ∧
      (State.resetWith (Cfg.mk true 3)).BetweenFrames ∧ ([0x7E#8, 0x7D#8, 0#8] : List Byte).length = 3 := by decide

theorem test_witness_PayloadDeliveredOnlyAtValidDelimiter :
    (nextState (exec (.decFeed 0x7E#8) (decoderState false 3 false false 0xFFFF#16 [1#8, 2#8, 3#8]))).map (·.payloads) =
      some [[1#8, 2#8, 3#8]] := by decide

theorem test_witness_StreamingIndependence :
    [Instr.decFeed 0x7E#8, .decFeedChunk [], .decFeedChunk [0x01#8, 0x0E#8], .decFeed 0x2E#8].map fedBytes =
      [[0x7E#8], [], [0x01#8, 0x0E#8], [0x2E#8]].map some := by decide

theorem test_witness_DataBytesAreBufferedInOrder :
    let s := decoderState true 4 false false 0xE1F0#16 [0#8]
    s.decEsc = false ∧ s.decFail = false ∧ s.decLen + ([0x7E#8, 0x7D#8, 0x5E#8] : List Byte).length ≤ s.cfg.maxPayload := by
  decide

theorem test_witness_EscapedByteStandsForItsXor_sent :
    [0x7E#8, 0x7D#8, 0x41#8].length ≤ (decoderState false 3 false false 0xFFFF#16 []).cfg.maxPayload ∧
      (0x41#8 : Byte) ≠ 0x7E#8 ∧ (0x41#8 : Byte) ≠ 0x7D#8 := by decide

theorem test_witness_EscapedByteStandsForItsXor :
    let s := decoderState true 3 false false 0xFFFF#16 [0#8, 0#8]
    s.decEsc = false ∧ s.decFail = false ∧ s.decLen < s.cfg.maxPayload ∧ (0x7D#8 : Byte) ≠ 0x7E#8 := by decide

theorem test_witness_InstancesShareNoState :
    (stepInstance 1 [State.reset, withStream [0x1000#16]]).map (fun ts => ts.map (·.pos)) = some [0, 1] := by decide

/-- V1 and V2 as cases of the characterisation. -/
theorem test_witness_DeliveryCharacterisation :
    State.reset.BetweenFrames ∧ RxFresh State.reset ∧ 0x7E#8 ∉ ([0x01#8, 0x0E#8, 0x2E#8] : List Byte) ∧
      Deliverable State.reset.cfg (dataOf false [0x01#8, 0x0E#8, 0x2E#8]).1 ∧
      ¬Deliverable State.reset.cfg (dataOf false [0x01#8, 0x0E#8, 0x2F#8]).1 := by decide

theorem test_witness_RoundTripDeliversThePayload_on :
    RoundTrips (Cfg.mk true 3) [0x7E#8] ∧ (State.resetWith (Cfg.mk true 3)).BetweenFrames := by decide

theorem test_witness_RoundTripDeliversThePayload_off : RoundTrips (Cfg.mk false 3) [0x7E#8, 0x7D#8, 0#8] := by decide

theorem test_witness_SomePayloadsNeverRoundTrip :
    (Cfg.mk true 3).Legal ∧ NeverRoundTrips (Cfg.mk true 3) [] ∧ NeverRoundTrips (Cfg.mk true 3) [0#8, 0#8] ∧
      NeverRoundTrips (Cfg.mk true 3) [0#8, 0#8, 0#8] ∧ NeverRoundTrips (Cfg.mk false 3) [0#8, 0#8] := by decide

theorem test_witness_OverflowRecovery :
    (State.resetWith (Cfg.mk true 3)).BetweenFrames ∧ ([0#8, 1#8, 2#8, 3#8] : List Byte).length = 3 + 1 ∧
      RoundTrips (Cfg.mk true 3) [0x41#8] := by decide

theorem test_witness_EscapeBeforeDelimiterDropsTheFrame :
    State.reset.BetweenFrames ∧ 0x7E#8 ∉ ([0x01#8, 0x0E#8, 0x2E#8] : List Byte) ∧
      (dataOf false [0x01#8, 0x0E#8, 0x2E#8]).2 = false := by decide

theorem test_witness_SingleByteChangeIsDetected :
    let s := decoderState true 4 false false 0x1D0F#16 [0x01#8, 0x0E#8, 0x2E#8]
    let s' := decoderState true 4 false false (crcFold 0xFFFF#16 [0x01#8, 0x0E#8, 0x2F#8]) [0x01#8, 0x0E#8, 0x2F#8]
    s.Inv ∧ s'.Inv ∧ s.cfg.crcEn = true ∧ s'.cfg = s.cfg ∧ s.decBuf = [0x01#8, 0x0E#8] ++ 0x2E#8 :: [] ∧
      s'.decBuf = [0x01#8, 0x0E#8] ++ 0x2F#8 :: [] ∧ (0x2E#8 : Byte) ≠ 0x2F#8 ∧
      after (.decFeed 0x7E#8) s (·.payloads) ≠ some s.payloads := by decide

theorem test_witness_DeliveredLengthsStayLegal :
    let s := { decoderState true 3 false false 0x1D0F#16 [0x01#8, 0x0E#8, 0x2E#8] with
      stream := [0x807E#16], payloads := [[0x41#8]] }
    s.Inv ∧ s.PayloadsOk ∧ (nextState (step s)).map (·.payloads) = some [[0x41#8], [0x01#8]] := by decide

theorem test_witness_FlagReturnsTheDecoderToReset : State.reset.BetweenFrames ∧ RxFresh State.reset := by decide

theorem test_witness_MismatchedModes :
    let s := State.resetWith (Cfg.mk false 3)
    let r := State.resetWith (Cfg.mk true 3)
    s.BetweenFrames ∧ r.BetweenFrames ∧ ([0x01#8] : List Byte).length + 2 ≤ s.cfg.maxPayload ∧
      ([0x01#8, 0x0E#8, 0x2E#8] : List Byte).length ≤ r.cfg.maxPayload := by decide

theorem test_witness_DecoderIgnoresTheOtherUnits :
    SameDecoder State.reset { State.reset with crc0 := 0#16, txCrc := 0#16, resp := [0#16] } := by decide

theorem test_witness_ReadsRepeatAndUpdatesDoNot :
    (∃ t, exec .crcValue State.reset = .next t) ∧ (∃ t, exec .crcIsres State.reset = .next t) ∧
      (∃ t, exec .crcReset State.reset = .next t) := ⟨⟨_, rfl⟩, ⟨_, rfl⟩, ⟨_, rfl⟩⟩

end Sys2Proof.Tests
end

section
/-! SUPPORT. Command words (spec/30_encoding.md R72 to R74): a header word selects a row of the opcode map exactly where it
matches it, what the decoder answers for each opcode, and every way a command decodes. -/

namespace Sys2Proof

/-! ## The opcode map -/

theorem opField_and (w m : Word) : opField (w &&& m) = opField w &&& opField m := BitVec.extractLsb'_and

/-- Every mask of the map covers the opcode field, so a word has the opcode field of each row it matches. -/
theorem opField_of_selects {r : OpcodeRow} (hr : r ∈ opcodeMap) {w : Word} (h : r.selects w = true) :
    opField w = opField r.value := by
  have hmask : ∀ r ∈ opcodeMap, opField r.mask = BitVec.allOnes 4 := by decide
  have hw : w &&& r.mask = r.value := by simpa [OpcodeRow.selects] using h
  rw [← hw, opField_and, hmask r hr, BitVec.and_allOnes]

/-- At most one row matches: two rows that match one word have the same opcode field, and no two rows share one. -/
theorem row_eq_of_selects {r r' : OpcodeRow} (hr : r ∈ opcodeMap) (hr' : r' ∈ opcodeMap) {w : Word}
    (h : r.selects w = true) (h' : r'.selects w = true) : r = r' := by
  have hinj : ∀ r ∈ opcodeMap, ∀ r' ∈ opcodeMap, opField r.value = opField r'.value → r = r' := by decide
  exact hinj r hr r' hr' ((opField_of_selects hr h).symm.trans (opField_of_selects hr' h'))

/-- The opcode a word selects is that of a row it matches. -/
theorem exists_row_of_selectOpcode {w : Word} {o : Opcode} (h : selectOpcode w = some o) :
    ∃ r ∈ opcodeMap, r.selects w = true ∧ r.opcode = o := by
  obtain ⟨r, hfind, ho⟩ := Option.map_eq_some_iff.1 h
  exact ⟨r, List.mem_of_find?_eq_some hfind, List.find?_some (p := fun r : OpcodeRow => r.selects w) hfind, ho⟩

theorem selectOpcode_eq_some_iff {r : OpcodeRow} (hr : r ∈ opcodeMap) (w : Word) :
    selectOpcode w = some r.opcode ↔ r.selects w = true := by
  constructor
  · intro h
    have hinj : ∀ r ∈ opcodeMap, ∀ r' ∈ opcodeMap, r.opcode = r'.opcode → r = r' := by decide
    obtain ⟨r', hr', hsel, ho⟩ := exists_row_of_selectOpcode h
    rwa [hinj r hr r' hr' ho.symm]
  · intro h
    obtain ⟨o, ho⟩ : ∃ o, selectOpcode w = some o := by
      rw [← Option.isSome_iff_exists, selectOpcode, Option.isSome_map]
      exact List.find?_isSome.2 ⟨r, hr, h⟩
    obtain ⟨r', hr', hsel, rfl⟩ := exists_row_of_selectOpcode ho
    rw [ho, row_eq_of_selects hr' hr hsel h]

/-- R74's test `w & mask = match`, row by row. -/
theorem selectOpcode_iff_masked {o : Opcode} {v m w : Word} (hr : ⟨o, v, m⟩ ∈ opcodeMap) :
    selectOpcode w = some o ↔ w &&& m = v :=
  (selectOpcode_eq_some_iff hr w).trans beq_iff_eq

/-- At most one row of the map matches a word, as a count over the rows (R74). -/
theorem count_selects_le_one (w : Word) : (opcodeMap.map (·.selects w)).count true ≤ 1 := by
  have hrow : ∀ r ∈ opcodeMap, r.selects w = decide (selectOpcode w = some r.opcode) := fun r hr => by
    rw [Bool.eq_iff_iff, decide_eq_true_iff, selectOpcode_eq_some_iff hr]
  rw [List.map_congr_left hrow]
  rcases selectOpcode w with _ | o
  · decide
  · cases o <;> decide

/-! ## The decoder, opcode by opcode -/

theorem counted_ok_iff (mk : List Byte → Instr) (w : Word) (ws : List Word) (i : Instr) (rest : List Word) :
    counted mk w ws = .ok (i, rest) ↔ ∃ bs, takeBytes (countField w) ws = .ok (bs, rest) ∧ i = mk bs := by
  unfold counted
  cases takeBytes (countField w) ws with
  | error e => simp
  | ok v =>
    obtain ⟨bs, rest'⟩ := v
    simp only [Except.ok.injEq, Prod.mk.injEq]
    constructor
    · rintro ⟨rfl, rfl⟩; exact ⟨bs, ⟨rfl, rfl⟩, rfl⟩
    · rintro ⟨-, ⟨rfl, rfl⟩, rfl⟩; exact ⟨rfl, rfl⟩

section
variable {w : Word} (ws : List Word)

theorem decode_crcReset (h : selectOpcode w = some .crcReset) : decode (w :: ws) = .ok (.crcReset, ws) := by
  simp only [decode, h]

theorem decode_crcUpdate (h : selectOpcode w = some .crcUpdate) :
    decode (w :: ws) = .ok (.crcUpdate (dataField w), ws) := by simp only [decode, h]

theorem decode_crcValue (h : selectOpcode w = some .crcValue) : decode (w :: ws) = .ok (.crcValue, ws) := by
  simp only [decode, h]

theorem decode_crcIsres (h : selectOpcode w = some .crcIsres) : decode (w :: ws) = .ok (.crcIsres, ws) := by
  simp only [decode, h]

theorem decode_decFeed (h : selectOpcode w = some .decFeed) :
    decode (w :: ws) = .ok (.decFeed (dataField w), ws) := by simp only [decode, h]

theorem decode_decFeedChunk (h : selectOpcode w = some .decFeedChunk) :
    decode (w :: ws) = counted .decFeedChunk w ws := by simp only [decode, h]

theorem decode_encFrame (h : selectOpcode w = some .encFrame) :
    decode (w :: ws) = counted .encFrame w ws := by simp only [decode, h]

theorem decode_unselected (h : selectOpcode w = none) : decode (w :: ws) = .error (headerError w) := by
  simp only [decode, h]

end

/-- Every way a stream with a header word decodes. -/
theorem decode_ok_cases {w : Word} {ws rest : List Word} {i : Instr} (h : decode (w :: ws) = .ok (i, rest)) :
    (selectOpcode w = some .crcReset ∧ i = .crcReset ∧ rest = ws) ∨
    (selectOpcode w = some .crcUpdate ∧ i = .crcUpdate (dataField w) ∧ rest = ws) ∨
    (selectOpcode w = some .crcValue ∧ i = .crcValue ∧ rest = ws) ∨
    (selectOpcode w = some .crcIsres ∧ i = .crcIsres ∧ rest = ws) ∨
    (selectOpcode w = some .decFeed ∧ i = .decFeed (dataField w) ∧ rest = ws) ∨
    (selectOpcode w = some .decFeedChunk ∧ ∃ bs, takeBytes (countField w) ws = .ok (bs, rest) ∧ i = .decFeedChunk bs) ∨
    (selectOpcode w = some .encFrame ∧ ∃ bs, takeBytes (countField w) ws = .ok (bs, rest) ∧ i = .encFrame bs) := by
  cases hs : selectOpcode w with
  | none => simp [decode_unselected ws hs] at h
  | some o =>
    cases o with
    | crcReset => cases (decode_crcReset ws hs).symm.trans h; simp
    | crcUpdate => cases (decode_crcUpdate ws hs).symm.trans h; simp
    | crcValue => cases (decode_crcValue ws hs).symm.trans h; simp
    | crcIsres => cases (decode_crcIsres ws hs).symm.trans h; simp
    | decFeed => cases (decode_decFeed ws hs).symm.trans h; simp
    | decFeedChunk => simpa using (counted_ok_iff ..).1 ((decode_decFeedChunk ws hs).symm.trans h)
    | encFrame => simpa using (counted_ok_iff ..).1 ((decode_encFrame ws hs).symm.trans h)

/-- The opcode of a command (R74). -/
def Instr.opcode : Instr → Opcode
  | .crcReset => .crcReset
  | .crcUpdate _ => .crcUpdate
  | .crcValue => .crcValue
  | .crcIsres => .crcIsres
  | .decFeed _ => .decFeed
  | .decFeedChunk _ => .decFeedChunk
  | .encFrame _ => .encFrame

section
variable (i : Instr)

theorem Instr.opcode_crcReset_iff : i.opcode = .crcReset ↔ i = .crcReset := by cases i <;> simp [opcode]

theorem Instr.opcode_crcUpdate_iff : i.opcode = .crcUpdate ↔ ∃ d, i = .crcUpdate d := by cases i <;> simp [opcode]

theorem Instr.opcode_crcValue_iff : i.opcode = .crcValue ↔ i = .crcValue := by cases i <;> simp [opcode]

theorem Instr.opcode_crcIsres_iff : i.opcode = .crcIsres ↔ i = .crcIsres := by cases i <;> simp [opcode]

theorem Instr.opcode_decFeed_iff : i.opcode = .decFeed ↔ ∃ d, i = .decFeed d := by cases i <;> simp [opcode]

theorem Instr.opcode_decFeedChunk_iff : i.opcode = .decFeedChunk ↔ ∃ s, i = .decFeedChunk s := by
  cases i <;> simp [opcode]

theorem Instr.opcode_encFrame_iff : i.opcode = .encFrame ↔ ∃ s, i = .encFrame s := by cases i <;> simp [opcode]

end

theorem selectOpcode_of_decode {w : Word} {ws rest : List Word} {i : Instr} (h : decode (w :: ws) = .ok (i, rest)) :
    selectOpcode w = some i.opcode := by
  obtain ⟨hs, rfl, -⟩ | ⟨hs, rfl, -⟩ | ⟨hs, rfl, -⟩ | ⟨hs, rfl, -⟩ | ⟨hs, rfl, -⟩ | ⟨hs, -, -, rfl⟩ | ⟨hs, -, -, rfl⟩ :=
    decode_ok_cases h
  all_goals exact hs

/-- A decoded command has a row's opcode exactly where its header word matches that row. -/
theorem opcode_eq_iff_masked {w : Word} {ws rest : List Word} {i : Instr} (h : decode (w :: ws) = .ok (i, rest))
    {o : Opcode} {v m : Word} (hr : ⟨o, v, m⟩ ∈ opcodeMap) : i.opcode = o ↔ w &&& m = v := by
  rw [← selectOpcode_iff_masked hr, selectOpcode_of_decode h, Option.some_inj]

/-- The opcode field of a word whose stream decodes is one that R74 assigns. -/
theorem opField_of_decode {w : Word} {ws rest : List Word} {i : Instr} (h : decode (w :: ws) = .ok (i, rest)) :
    opField w ∈ [0x1#4, 0x2#4, 0x3#4, 0x4#4, 0x8#4, 0x9#4, 0xA#4] := by
  have hdef : ∀ r ∈ opcodeMap, opField r.value ∈ [0x1#4, 0x2#4, 0x3#4, 0x4#4, 0x8#4, 0x9#4, 0xA#4] := by decide
  obtain ⟨r, hr, hsel, -⟩ := exists_row_of_selectOpcode (selectOpcode_of_decode h)
  rw [opField_of_selects hr hsel]
  exact hdef r hr

/-! ## The length of a command (R73) -/

theorem commandLength_of_selectOpcode {w : Word} {o : Opcode} (h : selectOpcode w = some o) :
    commandLength w = if o = .decFeedChunk ∨ o = .encFrame then 1 + countField w else 1 := by
  have hcounted : ∀ r ∈ opcodeMap, (opField r.value = 0x9#4 ∨ opField r.value = 0xA#4) ↔
      (r.opcode = .decFeedChunk ∨ r.opcode = .encFrame) := by decide
  obtain ⟨r, hr, hsel, rfl⟩ := exists_row_of_selectOpcode h
  simp only [commandLength, opField_of_selects hr hsel, hcounted r hr]

theorem commandLength_of_counted {w : Word} (h : opField w ∈ [0x9#4, 0xA#4]) : commandLength w = 1 + countField w :=
  if_pos (by simpa using h)

theorem commandLength_of_single {w : Word} (h : opField w ∈ [0x1#4, 0x2#4, 0x3#4, 0x4#4, 0x8#4]) :
    commandLength w = 1 := by
  have hne : ∀ op ∈ [0x1#4, 0x2#4, 0x3#4, 0x4#4, 0x8#4], ¬(op = 0x9#4 ∨ op = 0xA#4) := by decide
  exact if_neg (hne _ h)

/-- A decoded command takes exactly the words its header announces. -/
theorem decode_takes_commandLength {w : Word} {ws rest : List Word} {i : Instr}
    (h : decode (w :: ws) = .ok (i, rest)) :
    commandLength w ≤ (w :: ws).length ∧ rest = (w :: ws).drop (commandLength w) := by
  obtain ⟨hs, -, hrest⟩ | ⟨hs, -, hrest⟩ | ⟨hs, -, hrest⟩ | ⟨hs, -, hrest⟩ | ⟨hs, -, hrest⟩ | ⟨hs, bs, ht, -⟩ |
    ⟨hs, bs, ht, -⟩ := decode_ok_cases h
  iterate 5 · simp [commandLength_of_selectOpcode hs, hrest]
  all_goals
    obtain ⟨hlen, -, -, hrest⟩ := (takeBytes_ok_iff ..).1 ht
    simp [commandLength_of_selectOpcode hs, hrest, Nat.add_comm 1, hlen]

end Sys2Proof
end

section
/-! SUPPORT. Sequences of commands on the CRC engine and on the decoder, run to their end (spec/30_encoding.md R80,
spec/40_crc16.md R100, R101, spec/42_frame_decoder.md R150, R160). -/

namespace Sys2Proof.Machine

theorem exec_crcReset (s : State) : exec .crcReset s = .next (s.setCrc0 preset) := rfl

theorem exec_crcUpdate (d : Byte) (s : State) : exec (.crcUpdate d) s = .next (s.setCrc0 (crcUpdate s.crc0 d)) := rfl

theorem exec_decFeed (d : Byte) (s : State) : exec (.decFeed d) s = .next (decByte d s) := rfl

theorem exec_decFeedChunk (ds : List Byte) (s : State) : exec (.decFeedChunk ds) s = .next (decBytes ds s) := rfl

@[simp] theorem execAll_nil (s : State) : execAll [] s = .next s := rfl

theorem execAll_cons_of_next {i : Instr} {s t : State} (h : exec i s = .next t) (is : List Instr) :
    execAll (i :: is) s = execAll is t := by simp only [execAll, h]

theorem execAll_map_crcUpdate (bs : List Byte) (s : State) :
    execAll (bs.map .crcUpdate) s = .next (s.setCrc0 (crcFold s.crc0 bs)) := by
  induction bs generalizing s with
  | nil => rfl
  | cons b bs ih => rw [List.map_cons, execAll_cons_of_next (exec_crcUpdate b s), ih]; rfl

theorem execAll_crcReset_map_crcUpdate (bs : List Byte) (s : State) :
    execAll (.crcReset :: bs.map .crcUpdate) s = .next (s.setCrc0 (crcFold preset bs)) := by
  rw [execAll_cons_of_next (exec_crcReset s), execAll_map_crcUpdate]; rfl

theorem execAll_map_decFeed (ds : List Byte) (s : State) :
    execAll (ds.map .decFeed) s = .next (decBytes ds s) := by
  induction ds generalizing s with
  | nil => rfl
  | cons d ds ih => rw [List.map_cons, execAll_cons_of_next (exec_decFeed d s), ih, decBytes_cons]

theorem execAll_decFeedChunk (ds : List Byte) (s : State) :
    execAll [.decFeedChunk ds] s = .next (decBytes ds s) := execAll_cons_of_next (exec_decFeedChunk ds s) []

end Sys2Proof.Machine
end

section
/-! PROOFS. The obligations on the encoding of commands and the pseudo-instructions (spec/30_encoding.md R72 to R74, R80). -/

namespace Sys2Proof

open Sys2Proof.Machine

/-- Settles O14: a decoded command has the opcode its header selects, which is the one of the row the header matches; two
rows that match one word would share an opcode field. -/
theorem headerWordSelectsItsRow : Obligations.HeaderWordSelectsItsRow := by
  refine ⟨fun w ws i rest h => ?_, count_selects_le_one⟩
  have hrow {o : Opcode} {v m : Word} (hr : ⟨o, v, m⟩ ∈ opcodeMap) : i.opcode = o ↔ w &&& m = v :=
    opcode_eq_iff_masked h hr
  exact ⟨i.opcode_crcReset_iff.symm.trans (hrow (by decide)), i.opcode_crcUpdate_iff.symm.trans (hrow (by decide)),
    i.opcode_crcValue_iff.symm.trans (hrow (by decide)), i.opcode_crcIsres_iff.symm.trans (hrow (by decide)),
    i.opcode_decFeed_iff.symm.trans (hrow (by decide)), i.opcode_decFeedChunk_iff.symm.trans (hrow (by decide)),
    i.opcode_encFrame_iff.symm.trans (hrow (by decide))⟩

/-- Settles O15, from what the decoder answers for the opcode of the row the header matches. -/
theorem operandsAreAssembledFromTheWords : Obligations.OperandsAreAssembledFromTheWords := by
  refine fun w ws => ⟨fun hw => ?_, fun hw => ?_, ?_⟩
  · exact decode_crcUpdate ws ((selectOpcode_iff_masked (by decide)).2 hw)
  · exact decode_decFeed ws ((selectOpcode_iff_masked (by decide)).2 hw)
  · rintro n rfl hlen hzero
    have htake : takeBytes (countField w) ws =
        .ok ((ws.take (countField w)).map dataField, ws.drop (countField w)) :=
      (takeBytes_ok_iff ..).2 ⟨hlen, hzero, rfl, rfl⟩
    refine ⟨fun hw => ?_, fun hw => ?_⟩
    · rw [decode_decFeedChunk ws ((selectOpcode_iff_masked (by decide)).2 hw)]
      exact (counted_ok_iff ..).2 ⟨_, htake, rfl⟩
    · rw [decode_encFrame ws ((selectOpcode_iff_masked (by decide)).2 hw)]
      exact (counted_ok_iff ..).2 ⟨_, htake, rfl⟩

/-- Settles O16: a decoded command takes `commandLength` words, a value of the header alone. -/
theorem lengthIsKnownFromTheHeader : Obligations.LengthIsKnownFromTheHeader := by
  intro w ws i rest h
  obtain ⟨hlen, hrest⟩ := decode_takes_commandLength h
  refine ⟨fun hop => ?_, fun hop => ?_, opField_of_decode h⟩
  · rw [hrest, commandLength_of_single hop, List.drop_one, List.tail_cons]
  · rw [commandLength_of_counted hop, Nat.add_comm] at hlen hrest
    exact ⟨Nat.le_of_succ_le_succ hlen, hrest⟩

/-- Settles O22: the expansions are the assembler's own, and each runs by induction on its bytes. -/
theorem pseudoInstructionsExpand : Obligations.PseudoInstructionsExpand := fun items s =>
  ⟨rfl, rfl, rfl, execAll_map_crcUpdate (listBytes items) s, execAll_crcReset_map_crcUpdate (listBytes items) s,
    (execAll_map_decFeed (listBytes items) s).trans (execAll_decFeedChunk (listBytes items) s).symm⟩

end Sys2Proof
end

section
/-! SUPPORT. The update of the CRC16 engine as the rule's numbers, and what one and two updates leave of the accumulator
(spec/40_crc16.md R101, R103, R105). -/

namespace Sys2Proof.Machine

open Sys2Proof.Claims

/-! ## The update on unbounded numbers (R101) -/

theorem toNat_hiByte_xor (acc : Word) (b : Byte) :
    (hiByte acc ^^^ b).toNat = (acc.toNat >>> 8 ^^^ b.toNat) &&& 0xFF := by
  have hmask (n : Nat) : n &&& 0xFF = n % 2 ^ 8 := Nat.and_two_pow_sub_one_eq_mod n 8
  rw [hmask, Nat.xor_mod_two_pow, Nat.mod_eq_of_lt b.isLt, BitVec.toNat_xor, hiByte, BitVec.extractLsb'_toNat]

/-- The rule masks once at the end where the model's shifts mask each term: masking distributes over XOR. -/
theorem toNat_crcUpdate (acc : Word) (b : Byte) :
    (crcUpdate acc b).toNat = crcUpdateAsWritten acc.toNat b.toNat := by
  have hmask (n : Nat) : n &&& 0xFFFF = n % 2 ^ 16 := Nat.and_two_pow_sub_one_eq_mod n 16
  have hwide (x : Byte) : (x.setWidth 16).toNat = x.toNat := BitVec.toNat_setWidth_of_le (by decide)
  have hfits (x : Byte) : x.toNat % 2 ^ 16 = x.toNat := Nat.mod_eq_of_lt (by omega)
  rw [crcUpdate_eq_mix, crcMix, crcUpdateAsWritten, ← toNat_hiByte_xor, hmask]
  generalize hiByte acc ^^^ b = t
  have hx : t.toNat ^^^ t.toNat >>> 4 = (t ^^^ t >>> 4).toNat := by
    rw [BitVec.toNat_xor, BitVec.toNat_ushiftRight]
  simp only [hx, Nat.xor_mod_two_pow, BitVec.toNat_xor, BitVec.toNat_shiftLeft, hwide, hfits, Nat.xor_assoc]

/-! ## One update from the preset (R103) -/

/-- The low half of the new accumulator alone tells the byte. -/
theorem eq_of_loByte_crcUpdate_eq {a : Word} {b c : Byte} (h : loByte (crcUpdate a b) = loByte (crcUpdate a c)) :
    b = c := by
  simp only [crcUpdate_eq_mix, loByte_xor, loByte_shiftLeft, BitVec.zero_xor] at h
  exact (BitVec.xor_right_inj _).1 (loByte_crcMix_injective h)

/-- Only 0x1E leads from the preset to the residue's low half, and it leads to 0x120F. -/
theorem crcUpdate_preset_ne_residue (d : Byte) : crcUpdate preset d ≠ 0x1D0F#16 := by
  intro h
  have hd : d = 0x1E#8 := eq_of_loByte_crcUpdate_eq (a := preset) (by rw [h]; decide)
  subst hd
  exact absurd h (by decide)

/-! ## Two updates, and the residue (R105) -/

/-- Two updates shift the old accumulator out: its halves only meet the two bytes. -/
theorem crcUpdate_crcUpdate (a : Word) (b c : Byte) :
    crcUpdate (crcUpdate a b) c = (crcMix (hiByte a ^^^ b) <<< 8) ^^^
      crcMix (hiByte (crcMix (hiByte a ^^^ b)) ^^^ (loByte a ^^^ c)) := by
  have hout : a <<< 8 <<< 8 = 0#16 := by rw [← BitVec.shiftLeft_add]; exact BitVec.shiftLeft_eq_zero (by decide)
  rw [crcUpdate_eq_mix a, crcUpdate_eq_mix, hiByte_xor, hiByte_shiftLeft, BitVec.shiftLeft_xor_distrib, hout,
    BitVec.zero_xor, BitVec.xor_comm (loByte a), BitVec.xor_assoc]

/-- An accumulator's complement, high byte first, leads it to the residue: what meets each half is all ones, so the
result does not depend on the accumulator. -/
theorem crcUpdate_complement (a : Word) :
    crcUpdate (crcUpdate a (hiByte (~~~a))) (loByte (~~~a)) = 0x1D0F#16 := by
  have hones : a ^^^ ~~~a = 0xFFFF#16 := by rw [← BitVec.not_xor_right, BitVec.xor_self]; rfl
  rw [crcUpdate_crcUpdate, ← hiByte_xor, ← loByte_xor, hones]
  decide

theorem crcFold_append_complement (a : Word) (p : List Byte) :
    crcFold a (p ++ [hiByte (~~~crcFold a p), loByte (~~~crcFold a p)]) = 0x1D0F#16 := by
  rw [crcFold_append]
  exact crcUpdate_complement (crcFold a p)

/-! ## The reads, alone and after a block of updates (R102, R103) -/

theorem exec_crcValue (s : State) : exec .crcValue s = .next (s.respond s.crc0) := rfl

theorem exec_crcIsres (s : State) :
    exec .crcIsres s = .next (s.respond (if s.crc0 = 0x1D0F#16 then 0x0001#16 else 0x0000#16)) := by
  simp only [exec, execCrcIsres, crcIsResidue_iff]

theorem execAll_append_of_next {is : List Instr} {s t : State} (h : execAll is s = .next t) (js : List Instr) :
    execAll (is ++ js) s = execAll js t := by
  induction is generalizing s with
  | nil => cases h; rfl
  | cons i is ih =>
    cases hi : exec i s with
    | next u =>
      rw [execAll_cons_of_next hi] at h
      rw [List.cons_append, execAll_cons_of_next hi, ih h]
    | fault r => cases r
    | refused r => simp [execAll, hi] at h

theorem execAll_crcReset_crcUpdates_crcIsres (bs : List Byte) (s : State) :
    execAll (.crcReset :: bs.map .crcUpdate ++ [.crcIsres]) s =
      .next ((s.setCrc0 (crcFold preset bs)).respond
        (if crcFold preset bs = 0x1D0F#16 then 0x0001#16 else 0x0000#16)) := by
  rw [execAll_append_of_next (execAll_crcReset_map_crcUpdate bs s)]
  exact execAll_cons_of_next (exec_crcIsres _) []

end Sys2Proof.Machine
end

section
/-! PROOFS. The obligations on the CRC16 engine's four commands and the residue (spec/40_crc16.md R100 to R105). -/

namespace Sys2Proof

open Sys2Proof.Machine

/-- Settles O24: the preset is 0xFFFF, and the meaning writes `CRC0.ACC` alone. -/
theorem crcResetWritesThePreset : Obligations.CrcResetWritesThePreset := ⟨rfl, exec_crcReset⟩

/-- Settles O25: the model's update has the number of the rule's formula. -/
theorem crcUpdateFoldsOneByte : Obligations.CrcUpdateFoldsOneByte := by
  refine ⟨fun s d => ⟨rfl, ?_⟩, by decide, by decide, by decide⟩
  rw [← toNat_crcUpdate, BitVec.ofNat_toNat, BitVec.setWidth_eq]
  exact exec_crcUpdate d s

/-- Settles O27: a response leaves the accumulator as it was, so the second one repeats the first. -/
theorem crcValueRespondsTheAccumulator : Obligations.CrcValueRespondsTheAccumulator := by
  refine ⟨rfl, fun s => ⟨exec_crcValue s, ?_⟩⟩
  rw [execAll_cons_of_next (exec_crcValue s), execAll_cons_of_next (exec_crcValue _), execAll_nil]
  simp [State.respond]

/-- Settles O28: the three runs are blocks of three, no and one bytes, and the fold of the block decides the response. -/
theorem crcIsresTellsTheResidue : Obligations.CrcIsresTellsTheResidue := by
  refine ⟨rfl, exec_crcIsres, ?_, fun s => ?_, fun s d => ⟨crcUpdate preset d, ?_⟩⟩
  · have hres : crcFold preset [0x01#8, 0x0E#8, 0x2E#8] = 0x1D0F#16 := by decide
    refine (execAll_crcReset_crcUpdates_crcIsres [0x01#8, 0x0E#8, 0x2E#8] State.reset).trans ?_
    rw [hres, if_pos rfl]
    rfl
  · exact execAll_crcReset_crcUpdates_crcIsres [] s
  · refine (execAll_crcReset_crcUpdates_crcIsres [d] s).trans ?_
    rw [crcFold_cons, crcFold_nil, if_neg (crcUpdate_preset_ne_residue d)]
    rfl

/-- Settles O29: the two bytes are the complement of the fold, which leads every accumulator to the residue. -/
theorem invertedCrcReachesTheResidue : Obligations.InvertedCrcReachesTheResidue :=
  crcFold_append_complement 0xFFFF#16

end Sys2Proof
end

section
/-! SUPPORT. The frame encoder's command (spec/41_frame_encoder.md R130 to R133): what it answers, that the model's frame is the
one the rule writes out, and that no delimiter stands between its two (R135). -/

namespace Sys2Proof.Machine

open Sys2Proof.Claims

theorem exec_encFrame {p : List Byte} {s : State} (h : p.length ≤ s.cfg.maxPayload) :
    exec (.encFrame p) s = .next ((runTxCrc p s).emitFrame (frameOf s.cfg.crcEn p)) := if_neg (Nat.not_lt.2 h)

theorem exec_encFrame_refused {p : List Byte} {s : State} (h : s.cfg.maxPayload < p.length) :
    exec (.encFrame p) s = .refused .encTooLong := if_pos h

@[simp] theorem runTxCrc_frames (p : List Byte) (s : State) : (runTxCrc p s).frames = s.frames := by
  rw [runTxCrc_eq]

theorem escapedByte_eq_asWritten (b : Byte) : escapedByte b = escapedAsWritten b := by
  simp only [escapedByte, needsEscape_iff]
  rfl

theorem frameOf_eq_asWritten (crcEn : Bool) (p : List Byte) : frameOf crcEn p = frameAsWritten crcEn p := by
  have hitems : frameItems crcEn p = itemsAsWritten crcEn p := rfl
  have hescaped : escapedByte = escapedAsWritten := funext escapedByte_eq_asWritten
  rw [frameOf, escapedBytes, hitems, hescaped]
  rfl

theorem flagByte_notMem_escapedByte (b : Byte) : flagByte ∉ escapedByte b := by
  cases h : needsEscape b with
  | false =>
    have hb : b ≠ flagByte := by rintro rfl; exact absurd h (by decide)
    simpa [escapedByte_plain h] using hb.symm
  | true =>
    have hesc : flagByte ≠ escByte := by decide
    simpa [escapedByte_special h, hesc] using (special_xor_plain h).1.symm

theorem flagByte_notMem_escapedBytes (u : List Byte) : flagByte ∉ escapedBytes u := by
  simp [escapedBytes, flagByte_notMem_escapedByte]

end Sys2Proof.Machine
end

section
/-! SUPPORT. The decoder fed with what an encoder sends (spec/42_frame_decoder.md R151 to R155): an escaped byte is one data
byte, more data bytes than the capacity abandon the frame, and a frame that is not valid delivers nothing. -/

namespace Sys2Proof.Machine

/-! ## Delimiters -/

theorem takeFlag_payloads_of_not_valid {s : State} (h : s.frameValid = false) :
    (takeFlag s).payloads = s.payloads := by
  cases he : s.decEsc with
  | true => rw [takeFlag_escaped s he]; rfl
  | false => rw [takeFlag_dropped s he h]; rfl

theorem frameValid_of_decFail {s : State} (h : s.decFail = true) : s.frameValid = false := by
  simp [State.frameValid, h]

theorem frameValid_of_betweenFrames {s : State} (h : s.BetweenFrames) : s.frameValid = false := by
  obtain ⟨hbuf, -, -⟩ := h
  simp [State.frameValid, State.decLen, hbuf, minFrame]

theorem takeFlag_betweenFrames (s : State) : (takeFlag s).BetweenFrames := by
  cases he : s.decEsc with
  | true => rw [takeFlag_escaped s he]; exact ⟨rfl, rfl, rfl⟩
  | false =>
    cases hv : s.frameValid with
    | true => rw [takeFlag_valid s he hv]; exact ⟨rfl, he, rfl⟩
    | false => rw [takeFlag_dropped s he hv]; exact ⟨rfl, he, rfl⟩

theorem takeFlag_cfg (s : State) : (takeFlag s).cfg = s.cfg := decByte_cfg flagByte s

/-! ## Data bytes -/

/-- An encoder's one or two bytes for `b` are the data byte `b` to a decoder with no escape pending. -/
theorem decBytes_escapedByte (b : Byte) {s : State} (he : s.decEsc = false) (hf : s.decFail = false) :
    decBytes (escapedByte b) s = takeData b s := by
  cases h : needsEscape b with
  | false =>
    have hb : ¬(b = flagByte ∨ b = escByte) := by simp [← needsEscape_iff, h]
    obtain ⟨hflag, hesc⟩ := not_or.1 hb
    rw [escapedByte_plain h, decBytes_cons, decBytes_nil, decByte_data b s hflag (fun hk => absurd hk hesc) hf]
  | true =>
    obtain ⟨hflag, -⟩ := special_xor_plain h
    rw [escapedByte_special h, decBytes_cons, decBytes_cons, decBytes_nil, decByte_esc s he hf,
      decByte_data _ (takeEsc s) hflag (fun _ => rfl) hf]
    simp only [takeData, takeEsc, State.setDecEsc_decEsc, unescape_true, xor_escXor_twice, he, unescape_false]
    rfl

/-- An abandoned frame ignores every byte up to the next delimiter (R153). -/
theorem decBytes_ignored {ds : List Byte} {s : State} (hd : flagByte ∉ ds) (hf : s.decFail = true) :
    decBytes ds s = s := by
  induction ds with
  | nil => rfl
  | cons d ds ih =>
    obtain ⟨hne, hds⟩ := List.ne_and_not_mem_of_not_mem_cons hd
    rw [decBytes_cons, decByte_ignored d s hne.symm hf, ih hds]

/-- More data bytes than the buffer has room for abandon the frame and deliver nothing (R155). -/
theorem decBytes_escapedBytes_overflows (u : List Byte) (s : State) (he : s.decEsc = false) (hf : s.decFail = false)
    (hle : s.decLen ≤ s.cfg.maxPayload) (hlt : s.cfg.maxPayload < s.decLen + u.length) :
    (decBytes (escapedBytes u) s).decFail = true ∧ (decBytes (escapedBytes u) s).payloads = s.payloads := by
  induction u generalizing s with
  | nil => exact absurd hle (Nat.not_le.2 hlt)
  | cons b u ih =>
    rw [escapedBytes_cons, decBytes_append, decBytes_escapedByte b he hf]
    by_cases hfull : s.decLen = s.cfg.maxPayload
    · have hfail : (takeOverflow (s.setDecEsc false)).decFail = true := rfl
      rw [takeData_overflows b s hfull, decBytes_ignored (flagByte_notMem_escapedBytes u) hfail]
      exact ⟨rfl, rfl⟩
    · rw [List.length_cons] at hlt
      rw [takeData_fits b s hfull]
      refine ih _ rfl hf ?_ ?_
      all_goals
        simp only [State.setRxCrc_decLen, State.appendByte_decLen, State.setDecEsc_decLen, State.setRxCrc_cfg,
          State.appendByte_cfg, State.setDecEsc_cfg]
        omega

/-! ## Whole frames -/

/-- A frame whose payload and CRC exceed the capacity delivers nothing at a decoder between frames (R164). -/
theorem decBytes_frameOf_payloads_of_too_long {crcEn : Bool} {p : List Byte} {s : State} (hs : s.BetweenFrames)
    (hlong : s.cfg.maxPayload < (frameItems crcEn p).length) :
    (decBytes (frameOf crcEn p) s).payloads = s.payloads := by
  obtain ⟨hbuf, hesc, hfail⟩ := takeFlag_betweenFrames s
  have hempty : (takeFlag s).decLen = 0 := by rw [State.decLen_def, hbuf, List.length_nil]
  have hbody := decBytes_escapedBytes_overflows (frameItems crcEn p) (takeFlag s) hesc hfail
    (by rw [hempty]; exact Nat.zero_le _) (by rwa [hempty, Nat.zero_add, takeFlag_cfg])
  obtain ⟨hover, hkept⟩ := hbody
  rw [frameOf, decBytes_cons, decBytes_append, decBytes_cons, decBytes_nil, decByte_flag, decByte_flag,
    takeFlag_payloads_of_not_valid (frameValid_of_decFail hover), hkept,
    takeFlag_payloads_of_not_valid (frameValid_of_betweenFrames hs)]

end Sys2Proof.Machine
end

section
/-! PROOFS. The obligations on the frame encoder's command (spec/41_frame_encoder.md R130 to R133). -/

namespace Sys2Proof

open Sys2Proof.Machine

/-- Settles O33: payload and CRC together are two bytes longer than the payload, so from `MAX_PAYLOAD - 1` on the frame
overflows the decoder that receives it. -/
theorem overlongPayloadIsRefused : Obligations.OverlongPayloadIsRefused := by
  refine fun s p => ⟨exec_encFrame_refused, fun hp => ⟨_, frameOf s.cfg.crcEn p, exec_encFrame hp, ?_, ?_⟩⟩
  · rw [State.emitFrame_frames, runTxCrc_frames]
  · intro hcrc hlong r hr hbetween
    refine ⟨_, exec_decFeedChunk _ r, decBytes_frameOf_payloads_of_too_long hbetween ?_⟩
    rw [hr, hcrc, frameItems_on, List.length_append, length_crcBytes]
    omega

/-- Settles O32: the meaning's next state, with the frame and the value of `TX_CRC` as the rule writes them. -/
theorem encFrameEmitsTheFrame : Obligations.EncFrameEmitsTheFrame := by
  refine ⟨fun p => rfl, fun s p hp => ?_, fun s p => exec_encFrame_refused, by decide, by decide, by decide⟩
  rw [exec_encFrame hp, runTxCrc_eq, frameOf_eq_asWritten]
  rfl

end Sys2Proof
end

section
/-! SUPPORT. One wire byte and a sequence of data bytes as whole-state steps of the decoder (spec/42_frame_decoder.md R150 to
R156): what a delimiter, a data byte with room and a data byte without room make of every element, and that `DecByte` is the
pseudocode the rule writes out. -/

namespace Sys2Proof.Machine

open Sys2Proof.Claims

/-! ## A delimiter (R151, R156) -/

theorem framePayload_eq (s : State) :
    s.framePayload = if s.cfg.crcEn = true then s.decBuf.take (s.decLen - 2) else s.decBuf := by
  unfold State.framePayload
  split
  · rfl
  · exact List.take_length

theorem frameValid_eq_false_iff (s : State) :
    s.frameValid = false ↔ s.decFail = true ∨ s.decLen < 3 ∨ (s.cfg.crcEn = true ∧ s.rxCrc ≠ 0x1D0F#16) := by
  rw [← Bool.not_eq_true, frameValid_iff, not_and_or, not_and_or, Bool.not_eq_false, Nat.not_le, Classical.not_imp]

/-- Case F1 drops the frame. -/
theorem takeFlag_eq_of_escaped {s : State} (he : s.decEsc = true) :
    takeFlag s = { s with
      decEsc := false, decFail := false, decBuf := [], rxCrc := if s.cfg.crcEn = true then 0xFFFF#16 else s.rxCrc,
      events := s.events ++ [.dropEscFlag] } := takeFlag_escaped s he

/-- Case F2 delivers the payload. -/
theorem takeFlag_eq_of_valid {s : State} (he : s.decEsc = false) (hv : s.frameValid = true) :
    takeFlag s = { s with
      decFail := false, decBuf := [], rxCrc := if s.cfg.crcEn = true then 0xFFFF#16 else s.rxCrc,
      payloads := s.payloads ++ [s.framePayload], events := s.events ++ [.payload] } := takeFlag_valid s he hv

/-- Case F3 delivers nothing. -/
theorem takeFlag_eq_of_not_valid {s : State} (he : s.decEsc = false) (hv : s.frameValid = false) :
    takeFlag s = { s with
      decFail := false, decBuf := [], rxCrc := if s.cfg.crcEn = true then 0xFFFF#16 else s.rxCrc,
      events := s.events ++ s.dropReason.recorded } := takeFlag_dropped s he hv

/-- The event of case F3 as the rule's chain of tests. -/
theorem dropReason_recorded (s : State) :
    s.dropReason.recorded =
      if s.decFail = true then [.dropAbandoned]
      else if s.decBuf.length = 0 then []
      else if s.decBuf.length < 3 then [.dropShort]
      else [.dropCrc] := by
  unfold State.dropReason State.decLen minFrame
  split_ifs <;> rfl

/-! ## A data byte (R154, R155) -/

section
variable {d : Byte} {s : State} (hd : d ≠ flagByte) (he : d = escByte → s.decEsc = true) (hf : s.decFail = false)
include hd he hf

theorem decByte_eq_of_room (hroom : s.decLen ≠ s.cfg.maxPayload) :
    decByte d s = { s with
      decEsc := false, decBuf := s.decBuf ++ [unescape s.decEsc d],
      rxCrc := if s.cfg.crcEn = true then crcUpdate s.rxCrc (unescape s.decEsc d) else s.rxCrc } :=
  (decByte_data d s hd he hf).trans (takeData_fits d s hroom)

theorem decByte_eq_of_full (hfull : s.decLen = s.cfg.maxPayload) :
    decByte d s = { s with
      decEsc := false, decFail := true, rxCrc := if s.cfg.crcEn = true then 0xFFFF#16 else s.rxCrc,
      events := s.events ++ [.overflow] } :=
  (decByte_data d s hd he hf).trans (takeData_overflows d s hfull)

end

/-! ## The rule's pseudocode (R150) -/

theorem frameValid_iff_asWritten (s : State) :
    s.frameValid = true ↔
      s.decFail = false ∧ 3 ≤ s.decBuf.length ∧ (s.cfg.crcEn = false ∨ s.rxCrc = 0x1D0F#16) := by
  rw [frameValid_iff, imp_iff_not_or, Bool.not_eq_true, State.decLen_def]

theorem takeFlag_eq_asWritten (s : State) : takeFlag s = decByteAsWritten 0x7E#8 s := by
  have hvalid := frameValid_iff_asWritten s
  cases he : s.decEsc with
  | true => simp [takeFlag_eq_of_escaped he, decByteAsWritten, he]
  | false =>
    cases hv : s.frameValid with
    | true =>
      rw [takeFlag_eq_of_valid he hv]
      simp only [decByteAsWritten, he, ← hvalid, hv]
      rfl
    | false =>
      rw [takeFlag_eq_of_not_valid he hv, dropReason_recorded]
      simp only [decByteAsWritten, he, ← hvalid, hv]
      rfl

/-- The five cases of the model's step are the branches of the rule's. -/
theorem decByte_eq_asWritten (d : Byte) (s : State) : decByte d s = decByteAsWritten d s := by
  have hnotEsc (he : d = escByte → s.decEsc = true) : ¬(d = 0x7D#8 ∧ s.decEsc = false ∧ s.decFail = false) := by
    rintro ⟨hd, hn, -⟩
    rw [he hd] at hn
    cases hn
  rcases decByte_cases d s with
    ⟨rfl, h⟩ | ⟨rfl, he, hf, h⟩ | ⟨hd, hf, h⟩ | ⟨hd, he, hf, hfull, h⟩ | ⟨hd, he, hf, hroom, h⟩
  · exact h.trans (takeFlag_eq_asWritten s)
  · rw [h, decByteAsWritten, if_neg (by decide), if_pos ⟨rfl, he, hf⟩]
    rfl
  · rw [h, decByteAsWritten, if_neg (show d ≠ 0x7E#8 from hd), if_neg (by simp [hf]), if_pos hf]
  · rw [h, decByteAsWritten, if_neg (show d ≠ 0x7E#8 from hd), if_neg (hnotEsc he), if_neg (by simp [hf])]
    exact (if_pos hfull).symm
  · rw [h, decByteAsWritten, if_neg (show d ≠ 0x7E#8 from hd), if_neg (hnotEsc he), if_neg (by simp [hf])]
    exact (if_neg hroom).symm

/-! ## The payload-out port (R156) -/

theorem decByte_payloads_of_valid {s : State} (he : s.decEsc = false) (hv : s.frameValid = true) :
    (decByte flagByte s).payloads = s.payloads ++ [s.framePayload] := by
  rw [decByte_flag, takeFlag_eq_of_valid he hv]

theorem decByte_payloads_of_not_valid {d : Byte} {s : State}
    (h : ¬(d = flagByte ∧ s.decEsc = false ∧ s.frameValid = true)) : (decByte d s).payloads = s.payloads := by
  rcases decByte_cases d s with ⟨rfl, hk⟩ | ⟨-, -, -, hk⟩ | ⟨-, -, hk⟩ | ⟨-, -, -, -, hk⟩ | ⟨-, -, -, -, hk⟩
  case inl =>
    rw [hk]
    cases he : s.decEsc with
    | true => rw [takeFlag_eq_of_escaped he]
    | false => exact takeFlag_payloads_of_not_valid (Bool.eq_false_iff.2 fun hv => h ⟨rfl, he, hv⟩)
  all_goals rw [hk]
  all_goals rfl

/-! ## Sequences (R160, R154) -/

theorem decBytes_eq_foldl_asWritten (ds : List Byte) (s : State) :
    decBytes ds s = ds.foldl (fun u d => decByteAsWritten d u) s := by
  induction ds generalizing s with
  | nil => rfl
  | cons d ds ih => rw [decBytes_cons, decByte_eq_asWritten, ih, List.foldl_cons]

theorem escapedBytes_eq_asWritten (u : List Byte) : escapedBytes u = u.flatMap escapedAsWritten := by
  rw [escapedBytes, funext escapedByte_eq_asWritten]

/-- Data bytes that fit stand in the buffer in order, folded, and change nothing else. -/
theorem decBytes_escapedBytes_of_room (u : List Byte) (s : State) (he : s.decEsc = false) (hf : s.decFail = false)
    (hroom : s.decLen + u.length ≤ s.cfg.maxPayload) :
    decBytes (escapedBytes u) s = { s with
      decBuf := s.decBuf ++ u, rxCrc := if s.cfg.crcEn = true then crcFold s.rxCrc u else s.rxCrc } := by
  induction u generalizing s with
  | nil => simp
  | cons b u ih =>
    rw [List.length_cons] at hroom
    have hfits : s.decLen ≠ s.cfg.maxPayload := by omega
    rw [escapedBytes_cons, decBytes_append, decBytes_escapedByte b he hf, takeData_fits b s hfits, ih]
    case he => rfl
    case hf => exact hf
    case hroom =>
      simp only [State.setRxCrc_decLen, State.appendByte_decLen, State.setDecEsc_decLen, State.setRxCrc_cfg,
        State.appendByte_cfg, State.setDecEsc_cfg]
      omega
    rw [he, unescape_false]
    cases hcrc : s.cfg.crcEn <;> simp [hcrc]

end Sys2Proof.Machine
end

section
/-! PROOFS. The obligations on the frame decoder's commands, one byte and a chunk (spec/42_frame_decoder.md R150 to R160). -/

namespace Sys2Proof

open Sys2Proof.Machine

/-- Settles O43: a full buffer makes the data byte case O, which leaves a failed frame; and `MAX_PAYLOAD` data bytes fit
from an empty buffer where one more is one too many. -/
theorem overflowAbandonsTheFrame : Obligations.OverflowAbandonsTheFrame := by
  refine ⟨fun s d hd he hf hfull => ?_, fun s u v hs hlen => ?_⟩
  · have hstep := decByte_eq_of_full hd he hf hfull
    have hover : (decByte d s).decFail = true := by rw [hstep]
    have hkept : (decByte d s).payloads = s.payloads := by rw [hstep]
    exact ⟨decByte d s, _, exec_decFeed d s, exec_decFeed flagByte _,
      (takeFlag_payloads_of_not_valid (frameValid_of_decFail hover)).trans hkept, hstep⟩
  · obtain ⟨hbuf, hesc, hfail⟩ := hs
    have hempty : s.decLen = 0 := by rw [State.decLen_def, hbuf, List.length_nil]
    rw [← escapedBytes_eq_asWritten, ← escapedBytes_eq_asWritten]
    refine ⟨_, _, exec_decFeedChunk _ s, ?_, exec_decFeedChunk _ s, ?_⟩
    · rw [decBytes_escapedBytes_of_room u s hesc hfail (by omega)]
      exact hfail
    · have hover := decBytes_escapedBytes_overflows (u ++ [v]) s hesc hfail (by omega)
        (by rw [List.length_append, List.length_singleton]; omega)
      exact hover.1

/-- Settles O47: a chunk's step is the fold of the rule's `DecByte`, and so is one `DEC_FEED` per byte. -/
theorem chunkIsItsByteSequence : Obligations.ChunkIsItsByteSequence := by
  refine ⟨fun s ds => ⟨rfl, ?_, ?_⟩, exec_decFeedChunk []⟩
  · rw [exec_decFeedChunk, decBytes_eq_foldl_asWritten]
  · rw [exec_decFeedChunk, execAll_map_decFeed]

/-- Settles O37: the model's `DecByte` is the rule's. -/
theorem decFeedRunsDecByte : Obligations.DecFeedRunsDecByte := by
  refine fun s d => ⟨rfl, ?_⟩
  rw [exec_decFeed, decByte_eq_asWritten]

/-- Settles O38: the three cases at a delimiter, F1 after an escape, F2 for a valid frame, F3 for any other. -/
theorem delimiterEndsTheFrame : Obligations.DelimiterEndsTheFrame := by
  refine fun s => ⟨fun he => ?_, fun he hf hlen hcrc => ?_, fun he hdrop => ⟨s.dropReason.recorded, ?_⟩⟩
  · exact congrArg _ (takeFlag_eq_of_escaped he)
  · rw [← framePayload_eq]
    exact congrArg _ (takeFlag_eq_of_valid he ((frameValid_iff s).2 ⟨hf, hlen, hcrc⟩))
  · exact congrArg _ (takeFlag_eq_of_not_valid he ((frameValid_eq_false_iff s).2 hdrop))

/-- Settles O40: 0x7D is case E, or the data byte 0x5D after an escape, or ignored in an abandoned frame. -/
theorem escapeByteIsConsumed : Obligations.EscapeByteIsConsumed := by
  have hne : escByte ≠ flagByte := by decide
  refine fun s => ⟨fun he hf => ?_, fun he hf hroom => ?_, fun hf => ?_⟩
  · exact congrArg _ (decByte_esc s he hf)
  · have hdata := decByte_eq_of_room hne (fun _ => he) hf hroom
    rw [he] at hdata
    exact congrArg _ hdata
  · exact congrArg _ (decByte_ignored escByte s hne hf)

/-- Settles O41: case I, and the first invariant. -/
theorem abandonedFrameIgnoresBytes : Obligations.AbandonedFrameIgnoresBytes := by
  refine ⟨fun s d hd hf => congrArg _ (decByte_ignored d s hd hf), fun s hinv => ?_⟩
  obtain ⟨-, hesc, -⟩ := hinv
  exact hesc

/-- Settles O42: case D with room in the buffer. -/
theorem dataByteIsAppendedAndFolded : Obligations.DataByteIsAppendedAndFolded :=
  fun _ _ hd he hf hroom => congrArg _ (decByte_eq_of_room hd he hf hroom)

/-- Settles O44: what one byte adds to the payload-out port, with the test of case F2 spelled out. -/
theorem payloadDeliveredOnlyAtValidDelimiter : Obligations.PayloadDeliveredOnlyAtValidDelimiter := by
  intro s t d h
  cases h
  by_cases hv : d = flagByte ∧ s.decEsc = false ∧ s.frameValid = true
  · obtain ⟨rfl, he, hvalid⟩ := hv
    obtain ⟨hf, hlen, hcrc⟩ := (frameValid_iff s).1 hvalid
    rw [← framePayload_eq]
    exact .inl ⟨rfl, he, hf, hlen, hcrc, decByte_payloads_of_valid he hvalid⟩
  · refine .inr ⟨?_, decByte_payloads_of_not_valid hv⟩
    rwa [frameValid_iff] at hv

end Sys2Proof
end

section
/-! SUPPORT. What a delimiter that delivers nothing records, and that every delimiter leaves a fresh `RX_CRC`
(spec/60_exceptions.md R191, R193). -/

namespace Sys2Proof.Machine

open Sys2Proof.Claims

theorem takeFlag_rxCrc (s : State) :
    (takeFlag s).rxCrc = if s.cfg.crcEn = true then 0xFFFF#16 else s.rxCrc := by
  cases he : s.decEsc with
  | true => rw [takeFlag_eq_of_escaped he]
  | false =>
    cases hv : s.frameValid with
    | true => rw [takeFlag_eq_of_valid he hv]
    | false => rw [takeFlag_eq_of_not_valid he hv]

theorem takeFlag_rxFresh (s : State) : RxFresh (takeFlag s) := by
  intro hcrc
  rw [takeFlag_cfg] at hcrc
  rw [takeFlag_rxCrc, if_pos hcrc]

/-! ## The event of case F3, by its condition (R191, R193) -/

section
variable {s : State}

theorem dropReason_of_failed (hf : s.decFail = true) : s.dropReason = .dropAbandoned := if_pos hf

theorem dropReason_of_empty (hf : s.decFail = false) (hlen : s.decLen = 0) : s.dropReason = .noEvent := by
  rw [State.dropReason, if_neg (by simp [hf]), if_pos hlen]

theorem dropReason_of_short (hf : s.decFail = false) (hpos : 1 ≤ s.decLen) (hlen : s.decLen ≤ 2) :
    s.dropReason = .dropShort := by
  have hshort : s.decLen < minFrame := Nat.lt_succ_of_le hlen
  rw [State.dropReason, if_neg (by simp [hf]), if_neg (Nat.ne_of_gt hpos), if_pos hshort]

theorem dropReason_of_long (hf : s.decFail = false) (hlen : 3 ≤ s.decLen) : s.dropReason = .dropCrc := by
  have hlong : ¬s.decLen < minFrame := Nat.not_lt.2 hlen
  rw [State.dropReason, if_neg (by simp [hf]), if_neg (Nat.ne_of_gt (Nat.zero_lt_of_lt hlen)), if_neg hlong]

/-! ## The events and the payload port at a delimiter (R191) -/

theorem takeFlag_drop_of_escaped (he : s.decEsc = true) :
    (takeFlag s).events = s.events ++ [.dropEscFlag] ∧ (takeFlag s).payloads = s.payloads := by
  rw [takeFlag_eq_of_escaped he]
  exact ⟨rfl, rfl⟩

theorem takeFlag_drop_of_not_valid {e : Event} (he : s.decEsc = false)
    (hv : s.decFail = true ∨ s.decLen < 3 ∨ (s.cfg.crcEn = true ∧ s.rxCrc ≠ 0x1D0F#16)) (hreason : s.dropReason = e) :
    (takeFlag s).events = s.events ++ e.recorded ∧ (takeFlag s).payloads = s.payloads := by
  rw [takeFlag_eq_of_not_valid he ((frameValid_eq_false_iff s).2 hv), hreason]
  exact ⟨rfl, rfl⟩

end

end Sys2Proof.Machine
end

section
/-! PROOFS. The obligation on the frame-layer error classes (spec/60_exceptions.md R191). -/

namespace Sys2Proof

open Sys2Proof.Machine

/-- Settles O39: an escape decides before the rest (F1); otherwise a frame that is not valid is case F3, whose event the
failed-frame flag and the length choose; a data byte into a full buffer is case O. -/
theorem dropsRecordTheirEvent : Obligations.DropsRecordTheirEvent := by
  refine ⟨fun s => ⟨takeFlag s, exec_decFeed flagByte s, takeFlag_betweenFrames s, takeFlag_rxFresh s,
    takeFlag_drop_of_escaped, fun he hf hlen hcrc hres => ?_, fun he hf => ?_, fun he hf hpos hlen => ?_,
    fun he hf hlen => ?_⟩, fun s d hd he hf hfull => ⟨decByte d s, exec_decFeed d s, ?_⟩⟩
  · exact takeFlag_drop_of_not_valid he (.inr (.inr ⟨hcrc, hres⟩)) (dropReason_of_long hf hlen)
  · exact takeFlag_drop_of_not_valid he (.inl hf) (dropReason_of_failed hf)
  · exact takeFlag_drop_of_not_valid he (.inr (.inl (Nat.lt_succ_of_le hlen))) (dropReason_of_short hf hpos hlen)
  · have hnone := takeFlag_drop_of_not_valid he (.inr (.inl (by omega))) (dropReason_of_empty hf hlen)
    simpa [Event.recorded] using hnone
  · rw [decByte_eq_of_full hd he hf hfull]
    exact ⟨rfl, rfl, rfl⟩

end Sys2Proof
end

section
/-! PROOFS. The obligation on the state after reset (spec/70_reset_and_hazards.md R220). -/

namespace Sys2Proof

open Sys2Proof.Machine

/-- Settles O1: `State.resetWith` writes each value of the reset column itself, whatever the capacity and the CRC mode; the
preset is 0xFFFF, `DEC.LEN` is the length of an empty buffer, and this hardware's parameters are the two R7 names. -/
theorem resetLeavesTheStatedValues : Obligations.ResetLeavesTheStatedValues := by
  refine ⟨fun c _ => ⟨rfl, ?crc0, ?txCrc, ?rxCrc, rfl, rfl, ?decLen, rfl, rfl, rfl, rfl⟩, ?thisHardware⟩
  case crc0 | txCrc | rxCrc => exact (rfl : preset = 0xFFFF#16)
  case decLen => exact List.length_nil
  case thisHardware => exact congrArg State.resetWith (rfl : Cfg.thisHardware = ⟨true, 1024⟩)

end Sys2Proof
end

section
/-! SUPPORT. Command words and the encoder (spec/30_encoding.md R71, R72, R76): what a header and a data word hold once they are put
together, and that a word is put together from what it holds. -/

namespace Sys2Proof

open Sys2Proof.Machine

/-! ## A header: an opcode's bits above an operand of `k` bits -/

section
variable {k : Nat} {v m : Word}

theorem and_lowMask (k : Nat) (w : Word) :
    w &&& (BitVec.allOnes k).setWidth 16 = (w.extractLsb' 0 k).setWidth 16 := by
  apply BitVec.eq_of_getLsbD_eq
  intro i hi
  by_cases hk : i < k <;> simp [hi, hk]

theorem header_matches (hm : ~~~m = (BitVec.allOnes k).setWidth 16) (hv : v &&& m = v) (x : BitVec k) :
    (v ||| x.setWidth 16) &&& m = v := by
  have hx : (x.setWidth 16 : Word) &&& m = 0#16 := by
    rw [← BitVec.not_not (b := m), hm]
    apply BitVec.eq_of_getLsbD_eq
    intro i hi
    by_cases hk : i < k
    · simp [hi, hk]
    · simp [hi, hk, BitVec.getLsbD_of_ge x i (Nat.not_lt.1 hk)]
  rw [BitVec.and_or_distrib_right, hv, hx, BitVec.or_zero]

theorem header_operand (hk : k ≤ 16) (hv : v.extractLsb' 0 k = 0#k) (x : BitVec k) :
    (v ||| x.setWidth 16 : Word).extractLsb' 0 k = x := by
  rw [BitVec.extractLsb'_or, hv, BitVec.extractLsb'_setWidth_of_le (by omega), BitVec.extractLsb'_eq_self,
    BitVec.zero_or]

/-- A word that matches a row is the row's value with the word's own operand. -/
theorem eq_header_of_matches (hm : ~~~m = (BitVec.allOnes k).setWidth 16) {w : Word} (h : w &&& m = v) :
    w = v ||| (w.extractLsb' 0 k).setWidth 16 := by
  rw [← and_lowMask, ← hm, ← h, ← BitVec.and_or_distrib_left, BitVec.or_not_self, BitVec.and_allOnes]

end

/-- A count of the field's range as the field's 11 bits. -/
theorem ofNat_count_eq {n : Nat} (h : n ≤ maxCount) : BitVec.ofNat 16 n = (BitVec.ofNat 11 n).setWidth 16 := by
  have hmax : maxCount = 2047 := rfl
  apply BitVec.eq_of_toNat_eq
  simp only [BitVec.toNat_setWidth, BitVec.toNat_ofNat]
  omega

theorem ofNat_countField (w : Word) : BitVec.ofNat 16 (countField w) = (w.extractLsb' 0 11).setWidth 16 := by
  rw [countField, BitVec.ofNat_toNat]

theorem countField_le (w : Word) : countField w ≤ maxCount := Nat.le_of_lt_succ (w.extractLsb' 0 11).isLt

theorem countField_header {v : Word} (hv : v.extractLsb' 0 11 = 0#11) {n : Nat} (h : n ≤ maxCount) :
    countField (v ||| BitVec.ofNat 16 n) = n := by
  rw [ofNat_count_eq h, countField, header_operand (by decide) hv, BitVec.toNat_ofNat]
  exact Nat.mod_eq_of_lt (Nat.lt_succ_of_le h)

/-! ## Data words -/

@[simp] theorem dataField_dataWord (b : Byte) : dataField (dataWord b) = b := by
  rw [dataField, dataWord, BitVec.extractLsb'_setWidth_of_le (by decide), BitVec.extractLsb'_eq_self]

@[simp] theorem highField_dataWord (b : Byte) : highField (dataWord b) = 0#8 := by
  apply BitVec.eq_of_getLsbD_eq
  intro i hi
  simp [highField, dataWord, BitVec.getLsbD_of_ge]

theorem dataWord_dataField {w : Word} (h : highField w = 0#8) : dataWord (dataField w) = w :=
  word_eq_of_halves ((highField_dataWord _).trans h.symm) (dataField_dataWord _)

/-- What `takeBytes` reads is what the encoder writes: exactly the data words of its bytes. -/
theorem takeBytes_ok_iff_dataWords (n : Nat) (ws : List Word) (bs : List Byte) (rest : List Word) :
    takeBytes n ws = .ok (bs, rest) ↔ bs.length = n ∧ ws = bs.map dataWord ++ rest := by
  rw [takeBytes_ok_iff]
  constructor
  · rintro ⟨hlen, hzero, rfl, rfl⟩
    have hwords : ((ws.take n).map dataField).map dataWord = ws.take n := by
      rw [List.map_map]
      exact (List.map_congr_left fun w hw => dataWord_dataField (hzero w hw)).trans (List.map_id _)
    rw [hwords, List.take_append_drop, List.length_map, List.length_take, Nat.min_eq_left hlen]
    exact ⟨rfl, rfl⟩
  · rintro ⟨rfl, rfl⟩
    have hlen : (bs.map dataWord).length = bs.length := List.length_map ..
    rw [List.take_left' hlen, List.drop_left' hlen, List.map_map]
    refine ⟨by simp, by simp, ?_, rfl⟩
    simp [Function.comp_def]

/-! ## The rows of the opcode map, put together -/

section
variable {mk : List Byte → Instr} {o : Opcode} {v : Word}

theorem selectOpcode_counted {n : Nat} (hr : ⟨o, v, 0xF800#16⟩ ∈ opcodeMap) (hv : v &&& 0xF800#16 = v)
    (h : n ≤ maxCount) : selectOpcode (v ||| BitVec.ofNat 16 n) = some o := by
  rw [selectOpcode_iff_masked hr, ofNat_count_eq h]
  exact header_matches (by decide) hv _

theorem selectOpcode_byte (hr : ⟨o, v, 0xFF00#16⟩ ∈ opcodeMap) (hv : v &&& 0xFF00#16 = v) (d : Byte) :
    selectOpcode (v ||| d.setWidth 16) = some o := by
  rw [selectOpcode_iff_masked hr]
  exact header_matches (by decide) hv d

theorem counted_encodeCounted (hv : v.extractLsb' 0 11 = 0#11) {s : List Byte} (h : s.length ≤ maxCount)
    (rest : List Word) :
    counted mk (v ||| BitVec.ofNat 16 s.length) (s.map dataWord ++ rest) = .ok (mk s, rest) := by
  rw [counted_ok_iff, countField_header hv h]
  exact ⟨s, (takeBytes_ok_iff_dataWords ..).2 ⟨rfl, rfl⟩, rfl⟩

theorem eq_encodeCounted {w : Word} {ws rest : List Word} {bs : List Byte}
    (hr : ⟨o, v, 0xF800#16⟩ ∈ opcodeMap) (hs : selectOpcode w = some o)
    (ht : takeBytes (countField w) ws = .ok (bs, rest)) :
    bs.length ≤ maxCount ∧ w :: ws = encodeCounted v bs ++ rest := by
  obtain ⟨hlen, rfl⟩ := (takeBytes_ok_iff_dataWords ..).1 ht
  have hhead : w = v ||| BitVec.ofNat 16 bs.length := by
    rw [hlen, ofNat_countField]
    exact eq_header_of_matches (by decide) ((selectOpcode_iff_masked hr).1 hs)
  rw [hlen, encodeCounted, ← hhead]
  exact ⟨countField_le w, rfl⟩

end

/-! ## Decode and encode -/

theorem decode_encode {i : Instr} (rest : List Word) (h : i.wf = true) :
    decode (encode i ++ rest) = .ok (i, rest) := by
  cases i with
  | crcReset => exact decode_crcReset rest (by decide)
  | crcValue => exact decode_crcValue rest (by decide)
  | crcIsres => exact decode_crcIsres rest (by decide)
  | crcUpdate d =>
    refine (decode_crcUpdate rest (selectOpcode_byte (by decide) (by decide) d)).trans ?_
    rw [dataField, header_operand (by decide) (by decide)]
  | decFeed d =>
    refine (decode_decFeed rest (selectOpcode_byte (by decide) (by decide) d)).trans ?_
    rw [dataField, header_operand (by decide) (by decide)]
  | decFeedChunk s =>
    have hlen : s.length ≤ maxCount := of_decide_eq_true h
    exact (decode_decFeedChunk _ (selectOpcode_counted (by decide) (by decide) hlen)).trans
      (counted_encodeCounted (by decide) hlen rest)
  | encFrame s =>
    have hlen : s.length ≤ maxCount := of_decide_eq_true h
    exact (decode_encFrame _ (selectOpcode_counted (by decide) (by decide) hlen)).trans
      (counted_encodeCounted (by decide) hlen rest)

theorem wf_and_eq_encode_of_decode {ws rest : List Word} {i : Instr} (h : decode ws = .ok (i, rest)) :
    i.wf = true ∧ ws = encode i ++ rest := by
  cases ws with
  | nil => cases h
  | cons w ws =>
    have hbare {o : Opcode} {v : Word} (hr : ⟨o, v, 0xFFFF#16⟩ ∈ opcodeMap) (hs : selectOpcode w = some o) : w = v :=
      (BitVec.and_allOnes (x := w)).symm.trans ((selectOpcode_iff_masked hr).1 hs)
    have hbyte {o : Opcode} {v : Word} (hr : ⟨o, v, 0xFF00#16⟩ ∈ opcodeMap) (hs : selectOpcode w = some o) :
        w = v ||| (dataField w).setWidth 16 :=
      eq_header_of_matches (by decide) ((selectOpcode_iff_masked hr).1 hs)
    obtain ⟨hs, rfl, rfl⟩ | ⟨hs, rfl, rfl⟩ | ⟨hs, rfl, rfl⟩ | ⟨hs, rfl, rfl⟩ | ⟨hs, rfl, rfl⟩ | ⟨hs, bs, ht, rfl⟩ |
      ⟨hs, bs, ht, rfl⟩ := decode_ok_cases h
    · exact ⟨rfl, congrArg (· :: rest) (hbare (by decide) hs)⟩
    · exact ⟨rfl, congrArg (· :: rest) (hbyte (by decide) hs)⟩
    · exact ⟨rfl, congrArg (· :: rest) (hbare (by decide) hs)⟩
    · exact ⟨rfl, congrArg (· :: rest) (hbare (by decide) hs)⟩
    · exact ⟨rfl, congrArg (· :: rest) (hbyte (by decide) hs)⟩
    · obtain ⟨hlen, hws⟩ := eq_encodeCounted (v := 0x9000#16) (by decide) hs ht
      exact ⟨decide_eq_true hlen, hws⟩
    · obtain ⟨hlen, hws⟩ := eq_encodeCounted (v := 0xA000#16) (by decide) hs ht
      exact ⟨decide_eq_true hlen, hws⟩

/-- Enough commands allowed, the words of well-formed commands decode to them. -/
theorem decodeAll_flatMap_encode (is : List Instr) (h : ∀ i ∈ is, i.wf = true) {k : Nat} (hk : is.length ≤ k) :
    decodeAll k (is.flatMap encode) = some is := by
  induction is generalizing k with
  | nil => cases k <;> rfl
  | cons i is ih =>
    obtain ⟨hi, his⟩ := List.forall_mem_cons.1 h
    cases k with
    | zero => exact absurd hk (Nat.not_succ_le_zero _)
    | succ k =>
      have hdec := decode_encode (is.flatMap encode) hi
      rw [List.flatMap_cons]
      cases hws : encode i ++ is.flatMap encode with
      | nil => rw [hws] at hdec; cases hdec
      | cons w ws =>
        rw [hws] at hdec
        simp only [decodeAll, hdec, ih his (Nat.le_of_succ_le_succ hk), Option.map_some]

theorem length_encode_pos (i : Instr) : 1 ≤ (encode i).length := by
  cases i <;> simp [encode, encodeCounted]

theorem length_le_length_flatMap_encode (is : List Instr) : is.length ≤ (is.flatMap encode).length := by
  induction is with
  | nil => exact Nat.le_refl 0
  | cons i is ih =>
    have hi := length_encode_pos i
    rw [List.flatMap_cons, List.length_append, List.length_cons]
    omega

/-! ## Words that are refused (R75, R76) -/

/-- Where a row's mask covers a field, a word that matches the row has the row's field. -/
theorem field_of_selects {r : OpcodeRow} {w : Word} {start len : Nat}
    (hmask : r.mask.extractLsb' start len = BitVec.allOnes len) (h : r.selects w = true) :
    w.extractLsb' start len = r.value.extractLsb' start len := by
  have hw : w &&& r.mask = r.value := by simpa [OpcodeRow.selects] using h
  rw [← hw, BitVec.extractLsb'_and, hmask, BitVec.and_allOnes]

/-- A must-be-zero field that the masks of the word's opcode cover and that is not zero leaves no row. -/
theorem selectOpcode_eq_none_of_field {w : Word} {ops : List (BitVec 4)} {start len : Nat}
    (hrows : ∀ r ∈ opcodeMap, opField r.value ∈ ops →
      r.mask.extractLsb' start len = BitVec.allOnes len ∧ r.value.extractLsb' start len = 0#len)
    (hop : opField w ∈ ops) (hne : w.extractLsb' start len ≠ 0#len) : selectOpcode w = none := by
  refine Option.eq_none_iff_forall_not_mem.2 fun o ho => hne ?_
  obtain ⟨r, hr, hsel, -⟩ := exists_row_of_selectOpcode ho
  rw [opField_of_selects hr hsel] at hop
  obtain ⟨hmask, hzero⟩ := hrows r hr hop
  rw [field_of_selects hmask hsel, hzero]

theorem opDefined_iff (w : Word) :
    opDefined w = true ↔ opField w ∈ [0x1#4, 0x2#4, 0x3#4, 0x4#4, 0x8#4, 0x9#4, 0xA#4] := by
  have hfields : opcodeMap.map (fun r => opField r.value) = [0x1#4, 0x2#4, 0x3#4, 0x4#4, 0x8#4, 0x9#4, 0xA#4] := by
    decide
  rw [← hfields, opDefined]
  simp

theorem selectOpcode_of_reserved {w : Word} (h : opDefined w = false) : selectOpcode w = none := by
  refine Option.eq_none_iff_forall_not_mem.2 fun o ho => Bool.eq_false_iff.1 h ?_
  obtain ⟨r, hr, hsel, -⟩ := exists_row_of_selectOpcode ho
  exact List.any_eq_true.2 ⟨r, hr, beq_iff_eq.2 (opField_of_selects hr hsel).symm⟩

theorem decode_reserved {w : Word} (ws : List Word)
    (h : opField w ∈ [0x0#4, 0x5#4, 0x6#4, 0x7#4, 0xB#4, 0xC#4, 0xD#4, 0xE#4, 0xF#4]) :
    decode (w :: ws) = .error (.reservedOpcode w) := by
  have hdisjoint : ∀ op ∈ [0x0#4, 0x5#4, 0x6#4, 0x7#4, 0xB#4, 0xC#4, 0xD#4, 0xE#4, 0xF#4],
      op ∉ [0x1#4, 0x2#4, 0x3#4, 0x4#4, 0x8#4, 0x9#4, 0xA#4] := by decide
  have hundef : opDefined w = false := Bool.eq_false_iff.2 (mt (opDefined_iff w).1 (hdisjoint _ h))
  rw [decode_unselected ws (selectOpcode_of_reserved hundef), headerError, if_neg (Bool.eq_false_iff.1 hundef)]

theorem decode_mustBeZero {w : Word} (ws : List Word) (hsel : selectOpcode w = none)
    (hop : opField w ∈ [0x1#4, 0x2#4, 0x3#4, 0x4#4, 0x8#4, 0x9#4, 0xA#4]) :
    decode (w :: ws) = .error (.mustBeZero w) := by
  rw [decode_unselected ws hsel, headerError, if_pos ((opDefined_iff w).2 hop)]

/-- A counted command whose data words are not all there, or not all legal, is refused for one of the two reasons. -/
theorem counted_refused (mk : List Byte → Instr) {w : Word} {ws : List Word}
    (h : ws.length < countField w ∨ ∃ x ∈ ws.take (countField w), highField x ≠ 0#8) :
    counted mk w ws = .error .truncated ∨ ∃ x, counted mk w ws = .error (.badDataWord x) := by
  cases ht : takeBytes (countField w) ws with
  | ok v =>
    obtain ⟨hlen, hzero, -, -⟩ := (takeBytes_ok_iff _ _ v.1 v.2).1 ht
    rcases h with hshort | ⟨x, hx, hbad⟩
    · exact absurd hlen (Nat.not_le.2 hshort)
    · exact absurd (hzero x hx) hbad
  | error e =>
    have hcounted : counted mk w ws = .error e := by rw [counted, ht]
    rcases takeBytes_error ht with rfl | ⟨x, -, -, rfl⟩
    · exact .inl hcounted
    · exact .inr ⟨x, hcounted⟩

end Sys2Proof
end

section
/-! SUPPORT. One step, by what the words on the command port decode to (spec/10_state.md R20, R21, spec/30_encoding.md R78). -/

namespace Sys2Proof.Machine

theorem step_of_idle {s : State} (h : s.stream = []) : step s = .next s := by
  simp only [step, fetch, h]

theorem step_of_decode {s : State} {i : Instr} {rest : List Word} (h : decode s.stream = .ok (i, rest)) :
    step s = exec i (s.takeCommand rest) := by
  cases hs : s.stream with
  | nil => rw [hs] at h; cases h
  | cons w ws => rw [hs] at h; simp only [step, fetch, hs, h]

theorem step_of_illegal {s : State} {e : DecodeError} (hs : s.stream ≠ []) (h : decode s.stream = .error e) :
    step s = .refused (.illegalCommand e) := by
  cases hw : s.stream with
  | nil => exact absurd hw hs
  | cons w ws => rw [hw] at h; simp only [step, fetch, hw, h]

/-- Every way a step refuses: the words do not decode, or the decoded command's meaning refuses. -/
theorem step_refused_cases {s : State} {r : Refusal} (h : step s = .refused r) :
    (∃ e, r = .illegalCommand e ∧ s.stream ≠ [] ∧ decode s.stream = .error e) ∨
    ∃ i rest, decode s.stream = .ok (i, rest) ∧ exec i (s.takeCommand rest) = .refused r := by
  by_cases hs : s.stream = []
  · rw [step_of_idle hs] at h; cases h
  cases hd : decode s.stream with
  | ok v => exact .inr ⟨v.1, v.2, rfl, (step_of_decode hd).symm.trans h⟩
  | error e =>
    rw [step_of_illegal hs hd] at h
    cases h
    exact .inl ⟨e, rfl, hs, rfl⟩

end Sys2Proof.Machine
end

section
/-! PROOFS. The obligations on command words: the decoder and the encoder agree, and what the decoder does not take a step
refuses (spec/30_encoding.md sections 1 to 4). -/

namespace Sys2Proof

open Sys2Proof.Machine

/-- Settles O12: each header holds its opcode's bits and its operand, and a count's data words are those of its bytes. -/
theorem decodeOfEncodeIsIdentity : Obligations.DecodeOfEncodeIsIdentity := fun _ => decode_encode

/-- Settles O13: a word that matches a row is the row's value and the operand it holds, and a legal data word is its byte. -/
theorem decodedWordsAreTheEncoding : Obligations.DecodedWordsAreTheEncoding := fun _ _ _ => wf_and_eq_encode_of_decode

/-- Settles O17: a reserved opcode matches no row, and where a must-be-zero field is set, no row of that opcode matches. -/
theorem illegalHeaderWordsAreRefused : Obligations.IllegalHeaderWordsAreRefused := by
  intro s w ws hs
  have hrefused {e : DecodeError} (hd : decode (w :: ws) = .error e) : step s = .refused (.illegalCommand e) :=
    step_of_illegal (by simp [hs]) (by rw [hs, hd])
  have hdefined {ops : List (BitVec 4)} (hsub : ops ⊆ [0x1#4, 0x2#4, 0x3#4, 0x4#4, 0x8#4, 0x9#4, 0xA#4])
      (hop : opField w ∈ ops) (hsel : selectOpcode w = none) : step s = .refused (.illegalCommand (.mustBeZero w)) :=
    hrefused (decode_mustBeZero ws hsel (hsub hop))
  refine ⟨fun hop => hrefused (decode_reserved ws hop), fun hop hne => ?_, fun hop hne => ?_, fun hop hbit => ?_⟩
  · exact hdefined (by decide) hop (selectOpcode_eq_none_of_field (by decide) hop hne)
  · exact hdefined (by decide) hop (selectOpcode_eq_none_of_field (by decide) hop hne)
  · have hne : w.extractLsb' 11 1 ≠ 0#1 := fun hzero => by
      rw [BitVec.getLsbD_eq_extractLsb', hzero] at hbit
      cases hbit
    exact hdefined (by decide) hop (selectOpcode_eq_none_of_field (by decide) hop hne)

/-- Settles O18: a count that cannot be taken is refused for one of the two reasons, whichever counted command it heads. -/
theorem illegalOrMissingDataWordsAreRefused : Obligations.IllegalOrMissingDataWordsAreRefused := by
  intro s w ws hs hheader hdata
  have hrefused {mk : List Byte → Instr} (hd : decode (w :: ws) = counted mk w ws) :
      step s = .refused (.illegalCommand .truncated) ∨ ∃ x, step s = .refused (.illegalCommand (.badDataWord x)) := by
    have hstep {e : DecodeError} (he : counted mk w ws = .error e) : step s = .refused (.illegalCommand e) :=
      step_of_illegal (by simp [hs]) (by rw [hs, hd, he])
    rcases counted_refused mk hdata with he | ⟨x, he⟩
    · exact .inl (hstep he)
    · exact .inr ⟨x, hstep he⟩
  rcases hheader with hw | hw
  · exact hrefused (decode_decFeedChunk ws ((selectOpcode_iff_masked (by decide)).2 hw))
  · exact hrefused (decode_encFrame ws ((selectOpcode_iff_masked (by decide)).2 hw))

/-- Settles O19: there is no fault to raise, and a meaning refuses an overlong frame alone. -/
theorem onlyIllegalOrOverlongCommandsAreRefused : Obligations.OnlyIllegalOrOverlongCommandsAreRefused := by
  refine fun s => ⟨fun f => (nomatch f), fun r h => ?_⟩
  rcases step_refused_cases h with hillegal | ⟨i, rest, hd, hexec⟩
  · exact .inl hillegal
  · obtain ⟨p, rfl, hlong, rfl⟩ := exec_refused hexec
    exact .inr ⟨rfl, p, rest, hd, hlong⟩

/-- Settles O20, by running the decoder on the words. -/
theorem specWordsDecode : Obligations.SpecWordsDecode := by
  unfold Obligations.SpecWordsDecode
  decide

end Sys2Proof
end

section
/-! SUPPORT. The words of a line of assembly (spec/30_encoding.md R79, R80). -/

namespace Sys2Proof

open Sys2Proof.Machine

theorem wf_of_mem_expandLine {l : AsmLine} (h : (lineBytes l).length ≤ maxCount) : ∀ i ∈ expandLine l, i.wf = true := by
  cases l with
  | decFeedn items | encFrame items =>
    intro i hi
    cases List.mem_singleton.1 hi
    exact decide_eq_true h
  | _ => simp [expandLine, Instr.wf]

theorem assembleLine_eq_some_iff (l : AsmLine) (ws : List Word) :
    assembleLine l = some ws ↔ (lineBytes l).length ≤ maxCount ∧ ws = (expandLine l).flatMap encode := by
  unfold assembleLine
  split_ifs with h <;> simp [h, eq_comm]

end Sys2Proof
end

section
/-! PROOFS. The obligations on the assembler (spec/30_encoding.md R79 to R81). -/

namespace Sys2Proof

open Sys2Proof.Machine

/-- Settles O23: an assembled line's words are the encodings of its commands, well formed by the bound on its bytes. -/
theorem assembledLineDecodesToItsCommands : Obligations.AssembledLineDecodesToItsCommands := by
  refine fun l => ⟨?_, fun ws h => ?_⟩
  · rw [Option.isSome_iff_exists]
    simp only [assembleLine_eq_some_iff, exists_and_left, exists_eq, and_true]
    rfl
  · obtain ⟨hlen, rfl⟩ := (assembleLine_eq_some_iff l ws).1 h
    exact decodeAll_flatMap_encode _ (wf_of_mem_expandLine hlen) (length_le_length_flatMap_encode _)

/-- Settles O21, by running the parser and the assembler; the words of the longest line are a repetition. -/
theorem workedEncodingsAssemble : Obligations.WorkedEncodingsAssemble := by
  have hlong : assembleLine (.decFeedn [.repeated 0x00#8 1025]) = some (0x9401#16 :: List.replicate 1025 0x0000#16) := by
    have hbytes : listBytes [.repeated 0x00#8 1025] = List.replicate 1025 0x00#8 := List.append_nil _
    rw [assembleLine_eq_some_iff]
    simp only [lineBytes, expandLine, List.flatMap_singleton, encode, encodeCounted, hbytes, List.length_replicate,
      List.map_replicate]
    exact ⟨by decide, rfl⟩
  exact ⟨by decide, by decide, by decide, by decide, by decide, ⟨by decide, hlong⟩, by decide⟩

end Sys2Proof
end

section
/-! SUPPORT. The decoder as a unit of its own (spec/10_state.md R37, spec/40_crc16.md R106): what it does depends on its own elements
alone, and comes after what the ports carried before. So every command reads and writes its own unit, and none the stream. -/

namespace Sys2Proof.Machine

open Sys2Proof.Claims

/-! ## The decoder inside a state -/

/-- The state `c` with the decoder of `u`, and with what `u` put out after what `c` had put out. -/
def State.decoderIn (u c : State) : State :=
  { c with
    cfg := u.cfg, rxCrc := u.rxCrc, decEsc := u.decEsc, decFail := u.decFail, decBuf := u.decBuf,
    payloads := c.payloads ++ u.payloads, events := c.events ++ u.events }

/-- The decoder of `s` in a state that has put out nothing. -/
def State.decoderAlone (s : State) : State :=
  { State.resetWith s.cfg with rxCrc := s.rxCrc, decEsc := s.decEsc, decFail := s.decFail, decBuf := s.decBuf }

theorem decoderAlone_decoderIn (s : State) : s.decoderAlone.decoderIn s = s := by
  simp [State.decoderIn, State.decoderAlone, State.resetWith]

theorem decoderAlone_eq_of_sameDecoder {s t : State} (h : SameDecoder s t) : s.decoderAlone = t.decoderAlone := by
  obtain ⟨hcfg, hrx, hesc, hfail, hbuf⟩ := h
  simp only [State.decoderAlone, hcfg, hrx, hesc, hfail, hbuf]

theorem decByte_decoderIn (d : Byte) (u c : State) : decByte d (u.decoderIn c) = (decByte d u).decoderIn c := by
  simp only [decByte_eq_asWritten, decByteAsWritten, State.decoderIn]
  split_ifs <;> simp

theorem decBytes_decoderIn (ds : List Byte) (u c : State) :
    decBytes ds (u.decoderIn c) = (decBytes ds u).decoderIn c := by
  induction ds generalizing u with
  | nil => rfl
  | cons d ds ih => rw [decBytes_cons, decByte_decoderIn, ih, decBytes_cons]

/-- A chunk does to a whole state what it does to its decoder alone. -/
theorem decBytes_eq_decoderIn (ds : List Byte) (s : State) :
    decBytes ds s = (decBytes ds s.decoderAlone).decoderIn s := by
  rw [← decBytes_decoderIn, decoderAlone_decoderIn]

/-! ## What a command leaves alone (R22) -/

theorem decBytes_onlyItsOwn (ds : List Byte) (s : State) :
    decBytes ds s = { s with
      rxCrc := (decBytes ds s).rxCrc, decEsc := (decBytes ds s).decEsc, decFail := (decBytes ds s).decFail,
      decBuf := (decBytes ds s).decBuf, payloads := (decBytes ds s).payloads, events := (decBytes ds s).events } := by
  obtain ⟨hcfg, hcrc0, htx, hstream, hpos, hresp, hframes⟩ := decBytes_frame ds s
  exact State.eq_of_fields hcfg hcrc0 htx rfl rfl rfl rfl hstream hpos hresp hframes rfl rfl

theorem exec_onlyItsOwn {i : Instr} {s t : State} (h : exec i s = .next t) : OnlyItsOwn i s t := by
  obtain ⟨rfl, rfl⟩ | ⟨d, rfl, rfl⟩ | ⟨rfl, rfl⟩ | ⟨rfl, rfl⟩ | ⟨d, rfl, rfl⟩ | ⟨ds, rfl, rfl⟩ | ⟨p, rfl, -, rfl⟩ :=
    exec_cases h
  case inl | inr.inl | inr.inr.inl | inr.inr.inr.inl => rfl
  · exact decBytes_onlyItsOwn [d] s
  · exact decBytes_onlyItsOwn ds s
  · rw [runTxCrc_eq]; rfl

/-- No command transfers control (R21). -/
theorem exec_stream_pos {i : Instr} {s t : State} (h : exec i s = .next t) : t.stream = s.stream ∧ t.pos = s.pos := by
  have hown := exec_onlyItsOwn h
  cases i
  all_goals
    rw [show t = _ from hown]
    exact ⟨rfl, rfl⟩

/-! ## What a command puts out comes after what was put out before (R35, R58) -/

/-- On every port, and in the event list, `t` has what `s` has and perhaps more after it. -/
structure OutputsExtend (s t : State) : Prop where
  resp : s.resp <+: t.resp
  frames : s.frames <+: t.frames
  payloads : s.payloads <+: t.payloads
  events : s.events <+: t.events

theorem OutputsExtend.refl (s : State) : OutputsExtend s s :=
  ⟨List.prefix_rfl, List.prefix_rfl, List.prefix_rfl, List.prefix_rfl⟩

theorem decBytes_outputsExtend (ds : List Byte) (s : State) : OutputsExtend s (decBytes ds s) := by
  rw [decBytes_eq_decoderIn]
  exact ⟨List.prefix_rfl, List.prefix_rfl, List.prefix_append .., List.prefix_append ..⟩

theorem exec_outputsExtend {i : Instr} {s t : State} (h : exec i s = .next t) : OutputsExtend s t := by
  obtain ⟨-, rfl⟩ | ⟨d, -, rfl⟩ | ⟨-, rfl⟩ | ⟨-, rfl⟩ | ⟨d, -, rfl⟩ | ⟨ds, -, rfl⟩ | ⟨p, -, -, rfl⟩ := exec_cases h
  · exact { OutputsExtend.refl s with }
  · exact { OutputsExtend.refl s with }
  · exact { OutputsExtend.refl s with resp := List.prefix_append .. }
  · exact { OutputsExtend.refl s with resp := List.prefix_append .. }
  · exact decBytes_outputsExtend [d] s
  · exact decBytes_outputsExtend ds s
  · rw [runTxCrc_eq]
    exact { OutputsExtend.refl s with frames := List.prefix_append .. }

theorem step_outputsExtend {s t : State} (h : step s = .next t) : OutputsExtend s t := by
  obtain ⟨-, rfl⟩ | ⟨i, rest, -, hexec⟩ := step_cases h
  · exact .refl t
  · obtain ⟨hresp, hframes, hpayloads, hevents⟩ := exec_outputsExtend hexec
    exact ⟨hresp, hframes, hpayloads, hevents⟩

/-! ## No command reads the stream -/

/-- `s` with the command port holding `ws` at position `n`. -/
def State.onStream (s : State) (ws : List Word) (n : Nat) : State := { s with stream := ws, pos := n }

theorem decBytes_onStream (ds : List Byte) (s : State) (ws : List Word) (n : Nat) :
    decBytes ds (s.onStream ws n) = (decBytes ds s).onStream ws n := by
  rw [decBytes_eq_decoderIn ds s, decBytes_eq_decoderIn ds (s.onStream ws n)]
  rfl

theorem exec_onStream_of_next {i : Instr} {s t : State} (h : exec i s = .next t) (ws : List Word) (n : Nat) :
    exec i (s.onStream ws n) = .next (t.onStream ws n) := by
  obtain ⟨rfl, rfl⟩ | ⟨d, rfl, rfl⟩ | ⟨rfl, rfl⟩ | ⟨rfl, rfl⟩ | ⟨d, rfl, rfl⟩ | ⟨ds, rfl, rfl⟩ | ⟨p, rfl, hp, rfl⟩ :=
    exec_cases h
  case inl | inr.inl | inr.inr.inl | inr.inr.inr.inl => rfl
  · exact congrArg _ (decBytes_onStream [d] s ws n)
  · exact congrArg _ (decBytes_onStream ds s ws n)
  · have hp' : p.length ≤ (s.onStream ws n).cfg.maxPayload := hp
    rw [exec_encFrame hp', runTxCrc_eq, runTxCrc_eq]
    rfl

theorem exec_onStream_of_refused {i : Instr} {s : State} {r : Refusal} (h : exec i s = .refused r) (ws : List Word)
    (n : Nat) : exec i (s.onStream ws n) = .refused r := by
  obtain ⟨p, rfl, hlong, rfl⟩ := exec_refused h
  exact exec_encFrame_refused hlong

theorem run_succ_of_next {s t : State} (h : step s = .next t) (k : Nat) :
    Sys2Proof.core.run (k + 1) s = Sys2Proof.core.run k t := by
  have hcore : Sys2Proof.core.step s = .next t := h
  simp only [Host.Core.run, hcore]

theorem run_succ_of_refused {s : State} {r : Refusal} (h : step s = .refused r) (k : Nat) :
    Sys2Proof.core.run (k + 1) s = .refused r := by
  have hcore : Sys2Proof.core.step s = .refused r := h
  simp only [Host.Core.run, hcore]

theorem step_encode_onStream {i : Instr} (hi : i.wf = true) (s : State) (ws : List Word) (n : Nat) :
    step (s.onStream (encode i ++ ws) n) = exec i (s.onStream ws (n + 1)) := step_of_decode (decode_encode ws hi)

theorem execAll_cons_of_refused {i : Instr} {s : State} {r : Refusal} (h : exec i s = .refused r) (is : List Instr) :
    execAll (i :: is) s = .refused r := by simp only [execAll, h]

/-- The words of well-formed commands, one step each, are their meanings in order. -/
theorem run_encode_onStream (cmds : List Instr) (hwf : ∀ i ∈ cmds, i.wf = true) (rest : List Word) (s : State) (n : Nat) :
    Sys2Proof.core.run cmds.length (s.onStream (cmds.flatMap encode ++ rest) n) =
      execAll cmds (s.onStream rest (n + cmds.length)) := by
  induction cmds generalizing s n with
  | nil => rfl
  | cons i cmds ih =>
    obtain ⟨hi, hcmds⟩ := List.forall_mem_cons.1 hwf
    have hstep := step_encode_onStream hi s (cmds.flatMap encode ++ rest) n
    rw [List.flatMap_cons, List.append_assoc, List.length_cons]
    cases hexec : exec i s with
    | next t =>
      have hnext := hstep.trans (exec_onStream_of_next hexec _ _)
      rw [execAll_cons_of_next (exec_onStream_of_next hexec _ _), ← Nat.add_assoc n, Nat.add_right_comm]
      exact (run_succ_of_next hnext _).trans (ih hcmds t (n + 1))
    | fault f => cases f
    | refused r =>
      rw [execAll_cons_of_refused (exec_onStream_of_refused hexec _ _)]
      exact run_succ_of_refused (hstep.trans (exec_onStream_of_refused hexec _ _)) _

end Sys2Proof.Machine
end

section
/-! SUPPORT. The invariants of spec/10_state.md R36 and the lengths of delivered payloads (spec/42_frame_decoder.md R169): the decoder
keeps them byte by byte, and no other command touches what they speak of. -/

namespace Sys2Proof.Machine

open Sys2Proof.Claims

/-! ## What a step does to the decoder -/

/-- A step that answers feeds some bytes, perhaps none, to a decoder that is as it was. -/
theorem step_feeds_decoder {s t : State} (h : step s = .next t) :
    ∃ u ds, SameDecoder s u ∧ u.payloads = s.payloads ∧ t = decBytes ds u := by
  have hquiet {u : State} (hsame : SameDecoder s u) (hpayloads : u.payloads = s.payloads) :
      ∃ u' ds, SameDecoder s u' ∧ u'.payloads = s.payloads ∧ u = decBytes ds u' := ⟨u, [], hsame, hpayloads, rfl⟩
  obtain ⟨-, rfl⟩ | ⟨i, rest, -, hexec⟩ := step_cases h
  · exact hquiet ⟨rfl, rfl, rfl, rfl, rfl⟩ rfl
  obtain ⟨-, rfl⟩ | ⟨d, -, rfl⟩ | ⟨-, rfl⟩ | ⟨-, rfl⟩ | ⟨d, -, rfl⟩ | ⟨ds, -, rfl⟩ | ⟨p, -, -, rfl⟩ := exec_cases hexec
  iterate 4 · exact hquiet ⟨rfl, rfl, rfl, rfl, rfl⟩ rfl
  · exact ⟨s.takeCommand rest, [d], ⟨rfl, rfl, rfl, rfl, rfl⟩, rfl, rfl⟩
  · exact ⟨s.takeCommand rest, ds, ⟨rfl, rfl, rfl, rfl, rfl⟩, rfl, rfl⟩
  · rw [runTxCrc_eq]
    exact hquiet ⟨rfl, rfl, rfl, rfl, rfl⟩ rfl

/-- What depends on the decoder and on the payloads alone and is kept by every byte is kept by every step. -/
theorem step_keeps {P : State → Prop} (hcongr : ∀ s u, SameDecoder s u → u.payloads = s.payloads → P s → P u)
    (hbyte : ∀ d s, P s → P (decByte d s)) {s t : State} (hs : P s) (h : step s = .next t) : P t := by
  obtain ⟨u, ds, hsame, hpayloads, rfl⟩ := step_feeds_decoder h
  exact decBytes_induction hbyte ds u (hcongr s u hsame hpayloads hs)

/-! ## The invariants -/

theorem inv_of_sameDecoder {s t : State} (h : SameDecoder s t) (hs : s.Inv) : t.Inv := by
  cases s
  cases t
  obtain ⟨rfl, rfl, rfl, rfl, rfl⟩ := h
  exact hs

/-- A decoder between frames has the invariants with a fresh `RX_CRC`, as after reset or a delimiter. -/
theorem inv_of_betweenFrames {s : State} (hlegal : s.cfg.Legal) (hs : s.BetweenFrames) (hrx : s.rxCrc = 0xFFFF#16) :
    s.Inv := by
  obtain ⟨hbuf, hesc, hfail⟩ := hs
  have hlen : s.decLen = 0 := by rw [State.decLen_def, hbuf, List.length_nil]
  have hfold : s.rxCrc = crcFold preset s.decBuf := by rw [hrx, hbuf]; rfl
  have hnot : ¬s.decFail = true := by simp [hfail]
  exact ⟨hlegal, fun _ => hesc, hlen.trans_le (Nat.zero_le _), fun h => absurd h hnot, fun _ _ => hfold, fun _ => hrx⟩

theorem takeFlag_inv {s : State} (h : s.Inv) : (takeFlag s).Inv := by
  obtain ⟨hlegal, -, -, -, -, huntouched⟩ := h
  refine inv_of_betweenFrames (takeFlag_cfg s ▸ hlegal) (takeFlag_betweenFrames s) ?_
  rw [takeFlag_rxCrc]
  split_ifs with hcrc
  · rfl
  · exact huntouched (Bool.eq_false_iff.2 hcrc)

theorem decByte_inv (d : Byte) (s : State) (h : s.Inv) : (decByte d s).Inv := by
  obtain ⟨hlegal, hesc, hcap, hfull, hfold, huntouched⟩ := id h
  rcases decByte_cases d s with
    ⟨rfl, hk⟩ | ⟨-, -, hf, hk⟩ | ⟨-, -, hk⟩ | ⟨hd, he, hf, hlen, -⟩ | ⟨hd, he, hf, hroom, -⟩
  · exact hk ▸ takeFlag_inv h
  · have hnot : ¬s.decFail = true := by simp [hf]
    rw [hk]
    exact ⟨hlegal, fun hfail => absurd hfail hnot, hcap, hfull, hfold, huntouched⟩
  · exact hk.symm ▸ h
  · rw [decByte_eq_of_full hd he hf hlen]
    refine ⟨hlegal, fun _ => rfl, hcap, fun _ => hlen, fun _ hfail => (by cases hfail), fun hcrc => ?_⟩
    exact (if_neg (Bool.eq_false_iff.1 hcrc)).trans (huntouched hcrc)
  · have hnot : ¬s.decFail = true := by simp [hf]
    have hlt : s.decLen < s.cfg.maxPayload := Nat.lt_of_le_of_ne hcap hroom
    rw [decByte_eq_of_room hd he hf hroom]
    refine ⟨hlegal, fun hfail => absurd hfail hnot, ?_, fun hfail => absurd hfail hnot, fun hcrc _ => ?_, fun hcrc => ?_⟩
    · simpa [State.decLen_def] using hlt
    · rw [crcFold_append, ← hfold hcrc hf]
      exact if_pos hcrc
    · exact (if_neg (Bool.eq_false_iff.1 hcrc)).trans (huntouched hcrc)

theorem step_inv {s t : State} (hs : s.Inv) (h : step s = .next t) : t.Inv :=
  step_keeps (fun _ _ hsame _ => inv_of_sameDecoder hsame) decByte_inv hs h

theorem resetWith_inv {c : Cfg} (h : c.Legal) : (State.resetWith c).Inv := inv_of_betweenFrames h ⟨rfl, rfl, rfl⟩ rfl

theorem reachable_inv {c : Cfg} {s : State} (hc : c.Legal) (h : Reachable c s) : s.Inv := by
  induction h with
  | reset => exact resetWith_inv hc
  | hostWrites s ws _ ih => exact inv_of_sameDecoder ⟨rfl, rfl, rfl, rfl, rfl⟩ ih
  | byStep s t _ hstep ih => exact step_inv ih hstep

/-! ## Lengths of delivered payloads (R169) -/

theorem framePayload_lengthOk {s : State} (h : s.Inv) (hv : s.frameValid = true) :
    PayloadLengthOk s.cfg s.framePayload := by
  obtain ⟨-, -, hcap, -⟩ := h
  obtain ⟨-, hlen, -⟩ := (frameValid_iff s).1 hv
  have hcap : s.decBuf.length ≤ s.cfg.maxPayload := hcap
  rw [State.decLen_def] at hlen
  rw [framePayload_eq, State.decLen_def]
  constructor <;> intro hcrc
  · rw [if_pos hcrc, List.length_take]
    omega
  · rw [if_neg (by simp [hcrc])]
    exact ⟨hlen, hcap⟩

theorem decByte_payloadsOk (d : Byte) (s : State) (h : s.Inv) (hs : s.PayloadsOk) : (decByte d s).PayloadsOk := by
  rw [State.PayloadsOk, decByte_cfg]
  by_cases hv : d = flagByte ∧ s.decEsc = false ∧ s.frameValid = true
  · obtain ⟨rfl, he, hvalid⟩ := hv
    rw [decByte_payloads_of_valid he hvalid]
    exact List.forall_mem_append.2 ⟨hs, List.forall_mem_singleton.2 (framePayload_lengthOk h hvalid)⟩
  · rw [decByte_payloads_of_not_valid hv]
    exact hs

theorem step_payloadsOk {s t : State} (hinv : s.Inv) (hs : s.PayloadsOk) (h : step s = .next t) : t.PayloadsOk := by
  have hboth : t.Inv ∧ t.PayloadsOk :=
    step_keeps (P := fun s => s.Inv ∧ s.PayloadsOk)
      (fun s u hsame hpayloads ⟨hi, hp⟩ =>
        ⟨inv_of_sameDecoder hsame hi, by rw [State.PayloadsOk, hpayloads, ← hsame.1]; exact hp⟩)
      (fun d s ⟨hi, hp⟩ => ⟨decByte_inv d s hi, decByte_payloadsOk d s hi hp⟩) ⟨hinv, hs⟩ h
  exact hboth.2

end Sys2Proof.Machine
end

section
/-! SUPPORT. Several instances (spec/60_exceptions.md R202). -/

namespace Sys2Proof.Machine

/-- A step of the `k`-th of several puts its next state in its place. -/
theorem stepInstance_eq_some {k : Nat} {ss ts : List State} (h : stepInstance k ss = some ts) :
    ∃ s t, ss[k]? = some s ∧ step s = .next t ∧ ts = ss.set k t := by
  induction ss generalizing k ts with
  | nil => cases k <;> cases h
  | cons s ss ih =>
    cases k with
    | zero =>
      cases hstep : step s with
      | next t => simp only [stepInstance, hstep] at h; cases h; exact ⟨s, t, rfl, hstep, rfl⟩
      | fault f => cases f
      | refused r => simp [stepInstance, hstep] at h
    | succ k =>
      obtain ⟨ts', hts', rfl⟩ := Option.map_eq_some_iff.1 h
      obtain ⟨u, t, hu, hstep, rfl⟩ := ih hts'
      exact ⟨u, t, hu, hstep, rfl⟩

end Sys2Proof.Machine
end

section
/-! PROOFS. The obligations on the machine as a whole: the invariants, the step, the command stream, the frame of every command and
several instances (spec/10_state.md, spec/20_memory.md section 4, spec/60_exceptions.md section 5). -/

namespace Sys2Proof

open Sys2Proof.Machine Sys2Proof.Claims

/-- Settles O3: every byte keeps the invariants, and a step does no more to the decoder than to feed it bytes. -/
theorem everyStepKeepsTheInvariants : Obligations.EveryStepKeepsTheInvariants := fun _ _ => step_inv

/-- Settles O8, by induction on the commands: no meaning reads the stream or the position. -/
theorem commandStreamRunsInOrder : Obligations.CommandStreamRunsInOrder :=
  fun cmds rest s hwf => run_encode_onStream cmds hwf rest s s.pos

/-- Settles O58: at a valid delimiter the buffer has 3 to `MAX_PAYLOAD` bytes, and two of them are the CRC's. -/
theorem deliveredLengthsStayLegal : Obligations.DeliveredLengthsStayLegal := fun _ _ => step_payloadsOk

/-- Settles O4, by induction on how the state is reached. -/
theorem everyReachableStateHasTheInvariants : Obligations.EveryReachableStateHasTheInvariants :=
  fun _ _ => reachable_inv

/-- Settles O7: the command is taken from the stream before its meaning runs, which leaves stream and position alone. -/
theorem positionAdvancesByOneCommand : Obligations.PositionAdvancesByOneCommand := by
  intro s t hs h
  obtain ⟨hidle, -⟩ | ⟨i, rest, hd, hexec⟩ := step_cases h
  · exact absurd hidle hs
  · obtain ⟨hstream, hpos⟩ := exec_stream_pos hexec
    exact ⟨hpos, i, by rw [hstream, hd]; rfl⟩

/-- Settles O9: every operation on a port or on the event list appends. -/
theorem outputsOnlyGrow : Obligations.OutputsOnlyGrow := by
  intro s t h
  obtain ⟨hresp, hframes, hpayloads, hevents⟩ := step_outputsExtend h
  exact ⟨hresp, hframes, hpayloads, hevents⟩

/-- Settles O10, command by command. -/
theorem eachCommandLeavesTheRestUnchanged : Obligations.EachCommandLeavesTheRestUnchanged := fun _ _ _ => exec_onlyItsOwn

/-- Settles O2: after reset the decoder is between frames, every accumulator at the preset and nothing delivered. -/
theorem resetSatisfiesTheInvariants : Obligations.ResetSatisfiesTheInvariants :=
  ⟨fun _ hc => ⟨resetWith_inv hc, fun _ hp => absurd hp List.not_mem_nil⟩, resetWith_inv (by decide)⟩

/-- Settles O5: `takeCommand` is the move of stream and position. -/
theorem stepRunsTheDecodedCommand : Obligations.StepRunsTheDecodedCommand := fun _ _ _ => step_of_decode

/-- Settles O6: with no word on the port the fetch is idle. -/
theorem idleStepHoldsTheState : Obligations.IdleStepHoldsTheState := fun _ => step_of_idle

/-- Settles O11: the stepped state alone is replaced in the list. -/
theorem instancesShareNoState : Obligations.InstancesShareNoState := by
  intro k ss ts h
  obtain ⟨s, t, hs, hstep, rfl⟩ := stepInstance_eq_some h
  have hk : k < ss.length := (List.getElem?_eq_some_iff.1 hs).1
  exact ⟨List.length_set, fun j hj => List.getElem?_set_ne hj.symm, s, t, hs, hstep, List.getElem?_set_self hk⟩

/-- Settles O60: both chunks are that of the decoder alone, put after what each state had put out. -/
theorem decoderIgnoresTheOtherUnits : Obligations.DecoderIgnoresTheOtherUnits := by
  intro s s' t t' ds hsame h h'
  cases h
  cases h'
  rw [decBytes_eq_decoderIn ds s, decBytes_eq_decoderIn ds s', decoderAlone_eq_of_sameDecoder hsame]
  exact ⟨⟨rfl, rfl, rfl, rfl, rfl⟩, _, _, rfl, rfl, rfl, rfl⟩

end Sys2Proof
end

section
/-! SUPPORT. More of the CRC16 engine (spec/40_crc16.md R101, R103 to R105): the shift register is linear and one update of it, a fold
tells accumulators and bytes apart, and exactly one pair of bytes leads to the residue. -/

namespace Sys2Proof.Machine

open Sys2Proof.Claims

/-! ## The shift register (R104) -/

theorem shiftRegister_succ (k : Nat) (a : Word) :
    shiftRegister (k + 1) a =
      shiftRegister k ((a <<< 1) ^^^ if a.getLsbD 15 = true then 0x1021#16 else 0#16) := by
  simp only [shiftRegister]
  split_ifs <;> simp

theorem shiftRegister_xor (k : Nat) (a b : Word) :
    shiftRegister k (a ^^^ b) = shiftRegister k a ^^^ shiftRegister k b := by
  induction k generalizing a b with
  | zero => rfl
  | succ k ih =>
    have hfeedback : (if (a ^^^ b).getLsbD 15 = true then 0x1021#16 else 0#16) =
        (if a.getLsbD 15 = true then 0x1021#16 else 0#16) ^^^ (if b.getLsbD 15 = true then 0x1021#16 else 0#16) := by
      rw [BitVec.getLsbD_xor]
      cases a.getLsbD 15 <;> cases b.getLsbD 15 <;> rfl
    rw [shiftRegister_succ, shiftRegister_succ, shiftRegister_succ, ← ih, hfeedback, BitVec.shiftLeft_xor_distrib]
    ac_rfl

set_option maxRecDepth 10000 in
theorem shiftRegister_low : ∀ t : Byte, shiftRegister 8 (t.setWidth 16) = t.setWidth 16 <<< 8 := by decide

set_option maxRecDepth 10000 in
theorem shiftRegister_high : ∀ t : Byte, shiftRegister 8 (t.setWidth 16 <<< 8) = crcMix t := by decide

@[simp] theorem loByte_setWidth (b : Byte) : loByte (b.setWidth 16) = b := by
  rw [loByte, BitVec.extractLsb'_setWidth_of_le (by decide), BitVec.extractLsb'_eq_self]

@[simp] theorem hiByte_setWidth (b : Byte) : hiByte (b.setWidth 16) = 0#8 := highField_dataWord b

theorem word_eq_halves (a : Word) : a = ((hiByte a).setWidth 16 <<< 8) ^^^ (loByte a).setWidth 16 := by
  apply word_eq_of_halves
  · rw [hiByte_xor, hiByte_shiftLeft, loByte_setWidth, hiByte_setWidth, BitVec.xor_zero]
  · rw [loByte_xor, loByte_shiftLeft, loByte_setWidth, BitVec.zero_xor]

theorem setWidth_loByte_shiftLeft (a : Word) : (loByte a).setWidth 16 <<< 8 = a <<< 8 := by
  apply word_eq_of_halves
  · rw [hiByte_shiftLeft, hiByte_shiftLeft, loByte_setWidth]
  · rw [loByte_shiftLeft, loByte_shiftLeft]

/-- Eight shifts move the low half up and meet the high half as one update does. -/
theorem shiftRegister_eight (a : Word) : shiftRegister 8 a = (a <<< 8) ^^^ crcMix (hiByte a) := by
  calc shiftRegister 8 a
    _ = shiftRegister 8 (((hiByte a).setWidth 16 <<< 8) ^^^ (loByte a).setWidth 16) := by rw [← word_eq_halves]
    _ = crcMix (hiByte a) ^^^ (a <<< 8) := by
      rw [shiftRegister_xor, shiftRegister_high, shiftRegister_low, setWidth_loByte_shiftLeft]
    _ = (a <<< 8) ^^^ crcMix (hiByte a) := BitVec.xor_comm ..

section
variable (acc : Word) (b : Byte)

theorem hiByte_xor_shiftLeft : hiByte (acc ^^^ (b.setWidth 16 <<< 8)) = hiByte acc ^^^ b := by
  rw [hiByte_xor, hiByte_shiftLeft, loByte_setWidth]

theorem xor_shiftLeft_shiftLeft : (acc ^^^ (b.setWidth 16 <<< 8)) <<< 8 = acc <<< 8 := by
  apply word_eq_of_halves
  · rw [hiByte_shiftLeft, hiByte_shiftLeft, loByte_xor, loByte_shiftLeft, BitVec.xor_zero]
  · rw [loByte_shiftLeft, loByte_shiftLeft]

theorem crcUpdate_eq_shiftRegister : crcUpdate acc b = shiftRegister 8 (acc ^^^ (b.setWidth 16 <<< 8)) := by
  rw [shiftRegister_eight, xor_shiftLeft_shiftLeft, hiByte_xor_shiftLeft, crcUpdate_eq_mix]

theorem crcUpdate_eq_zero_byte : crcUpdate acc b = crcUpdate (acc ^^^ (b.setWidth 16 <<< 8)) 0#8 := by
  rw [crcUpdate_eq_mix, crcUpdate_eq_mix, xor_shiftLeft_shiftLeft, hiByte_xor_shiftLeft, BitVec.xor_zero]

end

/-- The shift by 12 keeps the low four bits alone. -/
theorem setWidth_low_nibble_shiftLeft (x : Byte) :
    ((x.extractLsb' 0 4).setWidth 16 : Word) <<< 12 = x.setWidth 16 <<< 12 := by
  apply BitVec.eq_of_getLsbD_eq
  intro i hi
  have hlow : i - 12 < 4 := by omega
  simp [hi, hlow]

/-! ## What a fold tells apart -/

theorem crcFold_injective_acc {a c : Word} (s : List Byte) (h : crcFold a s = crcFold c s) : a = c := by
  induction s generalizing a c with
  | nil => exact h
  | cons b s ih => exact crcUpdate_injective_acc (ih h)

/-- Two sequences that differ in one byte fold to different values. -/
theorem eq_of_crcFold_eq {a : Word} {p q : List Byte} {b c : Byte}
    (h : crcFold a (p ++ b :: q) = crcFold a (p ++ c :: q)) : b = c := by
  rw [crcFold_append, crcFold_append, crcFold_cons, crcFold_cons] at h
  exact crcUpdate_injective_byte (crcFold_injective_acc q h)

/-! ## One pair of bytes reaches the residue (R103, R105) -/

/-- Two updates tell both their bytes: the low half of the result tells what the second byte meets, the rest then what the
first one meets. -/
theorem crcUpdate_crcUpdate_injective {a : Word} {x y x' y' : Byte}
    (h : crcUpdate (crcUpdate a x) y = crcUpdate (crcUpdate a x') y') : x = x' ∧ y = y' := by
  have hlow := congrArg loByte h
  simp only [crcUpdate_crcUpdate, loByte_xor, loByte_shiftLeft, BitVec.zero_xor] at hlow
  have hmeet := loByte_crcMix_injective hlow
  have hhigh := congrArg hiByte h
  simp only [crcUpdate_crcUpdate, hmeet, hiByte_xor, hiByte_shiftLeft, BitVec.xor_left_inj] at hhigh
  have hx : x = x' := (BitVec.xor_right_inj _).1 (loByte_crcMix_injective hhigh)
  subst hx
  exact ⟨rfl, crcUpdate_injective_byte h⟩

theorem crcFold_append_pair_iff (a : Word) (p : List Byte) (x y : Byte) :
    crcFold a (p ++ [x, y]) = 0x1D0F#16 ↔ x = hiByte (~~~crcFold a p) ∧ y = loByte (~~~crcFold a p) := by
  constructor
  · intro h
    rw [← crcFold_append_complement a p, crcFold_append, crcFold_append] at h
    exact crcUpdate_crcUpdate_injective h
  · rintro ⟨rfl, rfl⟩
    exact crcFold_append_complement a p

theorem crcFold_append_pair_iff_sentCrc (p : List Byte) (x y : Byte) :
    crcFold preset (p ++ [x, y]) = 0x1D0F#16 ↔ [x, y] = sentCrc p := by
  rw [crcFold_append_pair_iff, ← List.singleton_inj (a := y), ← List.cons_eq_cons]
  rfl

/-- A sequence folds to the residue exactly if its last two bytes are the inverted CRC of those before. -/
theorem crcFold_eq_residue_iff {u : List Byte} (h : 2 ≤ u.length) :
    crcFold preset u = 0x1D0F#16 ↔ u.drop (u.length - 2) = sentCrc (u.take (u.length - 2)) := by
  obtain ⟨x, y, hlast⟩ : ∃ x y, u.drop (u.length - 2) = [x, y] := by
    rw [← List.length_eq_two, List.length_drop]
    omega
  conv_lhs => rw [← List.take_append_drop (u.length - 2) u, hlast]
  rw [hlast, crcFold_append_pair_iff_sentCrc]

end Sys2Proof.Machine
end

section
/-! PROOFS. The obligations on the CRC16 engine that are inferences of the spec (spec/40_crc16.md R101, R103 to R105,
spec/20_memory.md R57). -/

namespace Sys2Proof

open Sys2Proof.Machine

/-- Settles O26: the fields' form differs in bits that the shifts drop, and the shift register is linear. -/
theorem crcUpdateEquivalentForms : Obligations.CrcUpdateEquivalentForms := by
  refine fun acc b => ⟨?_, crcUpdate_eq_shiftRegister acc b, crcUpdate_eq_zero_byte acc b⟩
  have hlow : ((acc.extractLsb' 0 8).setWidth 16 : Word) <<< 8 = acc <<< 8 := setWidth_loByte_shiftLeft acc
  simp only [crcUpdate_eq_mix, crcMix, hlow, setWidth_low_nibble_shiftLeft, BitVec.xor_assoc]
  rfl

/-- Settles O30: two updates tell their bytes apart, and the complement's two bytes reach the residue. -/
theorem onePairOfBytesReachesTheResidue : Obligations.OnePairOfBytesReachesTheResidue := by
  refine ⟨crcFold_append_pair_iff, fun s p x y =>
    ⟨_, execAll_crcReset_crcUpdates_crcIsres (p ++ [x, y]) s, ?_⟩⟩
  rw [State.respond_resp, State.setCrc0_resp]
  simp only [crcFold_append_pair_iff_sentCrc]

/-- Settles O31: a response is not read back; the update of 0xFFFF and of 0xE1F0 by 0x00 differ, and a data byte fed twice is
buffered twice. -/
theorem readsRepeatAndUpdatesDoNot : Obligations.ReadsRepeatAndUpdatesDoNot := by
  have hrepeat (s : State) (v : Word) : ((s.respond v).respond v).resp = s.resp ++ [v, v] := by
    rw [State.respond_resp, State.respond_resp, List.append_assoc, List.singleton_append]
  refine ⟨fun s t h => ?value, fun s t h => ?isres, fun s t h => ?reset, ?update, ?feed⟩
  case value => cases h; exact ⟨rfl, _, _, rfl, rfl, hrepeat s _⟩
  case isres => cases h; exact ⟨rfl, _, _, rfl, rfl, hrepeat s _⟩
  case reset => cases h; rfl
  case update =>
    refine ⟨State.reset, _, 0x00#8, exec_crcUpdate _ _, fun h => ?_⟩
    have hcrc := congrArg (Option.map State.crc0 ∘ nextState) h
    exact absurd hcrc (by decide)
  case feed =>
    refine ⟨State.reset, _, 0x00#8, exec_decFeed _ _, fun h => ?_⟩
    have hbuf := congrArg (Option.map State.decBuf ∘ nextState) h
    exact absurd hbuf (by decide)

end Sys2Proof
end

section
/-! SUPPORT. What stands in the bytes an encoder sends (spec/41_frame_encoder.md R134, R135). -/

namespace Sys2Proof.Machine

open Sys2Proof.Claims

theorem length_escapedByte (b : Byte) : (escapedByte b).length = if needsEscape b = true then 2 else 1 := by
  cases h : needsEscape b with
  | false => rw [escapedByte_plain h]; rfl
  | true => rw [escapedByte_special h]; rfl

/-- Every byte is sent as one byte, and as one more where it is escaped. -/
theorem length_escapedBytes (u : List Byte) :
    (escapedBytes u).length = u.length + (u.filter fun b => b = 0x7E#8 ∨ b = 0x7D#8).length := by
  induction u with
  | nil => rfl
  | cons b u ih =>
    have hspecial : (b = 0x7E#8 ∨ b = 0x7D#8) ↔ needsEscape b = true := (needsEscape_iff b).symm
    rw [escapedBytes_cons, List.length_append, length_escapedByte, ih, List.filter_cons]
    simp only [hspecial, decide_eq_true_eq]
    split_ifs <;> simp only [List.length_cons] <;> omega

theorem length_frameOf (crcEn : Bool) (p : List Byte) :
    (frameOf crcEn p).length = 2 + (frameItems crcEn p).length +
      ((frameItems crcEn p).filter fun b => b = 0x7E#8 ∨ b = 0x7D#8).length := by
  rw [frameOf, List.length_cons, List.length_append, List.length_singleton, length_escapedBytes]
  omega

theorem length_frameItems (crcEn : Bool) (p : List Byte) :
    (frameItems crcEn p).length = p.length + if crcEn = true then 2 else 0 := by
  cases crcEn with
  | false => rfl
  | true => rw [frameItems_on, List.length_append, length_crcBytes, if_pos rfl]

/-- What an emitted frame is, wherever `ENC_FRAME` answers. -/
theorem exec_encFrame_frames {p : List Byte} {s t : State} (h : exec (.encFrame p) s = .next t) :
    t.frames = s.frames ++ [frameOf s.cfg.crcEn p] := by
  obtain ⟨hi, -⟩ | ⟨d, hi, -⟩ | ⟨hi, -⟩ | ⟨hi, -⟩ | ⟨d, hi, -⟩ | ⟨ds, hi, -⟩ | ⟨q, hi, -, rfl⟩ := exec_cases h
  all_goals cases hi
  rw [State.emitFrame_frames, runTxCrc_frames]

theorem exec_encFrame_emits {p : List Byte} {s : State} (h : p.length ≤ s.cfg.maxPayload) :
    ∃ t, exec (.encFrame p) s = .next t ∧ t.frames = s.frames ++ [frameOf s.cfg.crcEn p] :=
  ⟨_, exec_encFrame h, exec_encFrame_frames (exec_encFrame h)⟩

/-- In the bytes sent between the delimiters every 0x7D is followed by 0x5E or 0x5D. -/
theorem escape_followed_in_escapedBytes (u : List Byte) (k : Nat) (h : (escapedBytes u)[k]? = some escByte) :
    (escapedBytes u)[k + 1]? = some 0x5E#8 ∨ (escapedBytes u)[k + 1]? = some 0x5D#8 := by
  induction u generalizing k with
  | nil => cases h
  | cons b u ih =>
    rw [escapedBytes_cons] at h ⊢
    cases hb : needsEscape b with
    | false =>
      rw [escapedByte_plain hb, List.singleton_append] at h ⊢
      cases k with
      | zero =>
        cases h
        exact absurd hb (by decide)
      | succ k => exact ih k h
    | true =>
      rw [escapedByte_special hb, List.cons_append, List.singleton_append] at h ⊢
      match k with
      | 0 => rcases (needsEscape_iff b).1 hb with rfl | rfl
             · exact .inl rfl
             · exact .inr rfl
      | 1 => exact absurd (Option.some_inj.1 h) (special_xor_plain hb).2
      | k + 2 => exact ih k h

end Sys2Proof.Machine
end

section
/-! PROOFS. The obligations on the frame that an encoder sends, which are inferences of the spec (spec/41_frame_encoder.md R134,
R135). -/

namespace Sys2Proof

open Sys2Proof.Machine

/-- Settles O34: each unescaped byte is sent as itself or with an escape before it. -/
theorem frameLengthFormula : Obligations.FrameLengthFormula := by
  intro s t p h
  have hlen := length_frameOf s.cfg.crcEn p
  have hitems := length_frameItems s.cfg.crcEn p
  have hfilter := List.length_filter_le (fun b => b = 0x7E#8 ∨ b = 0x7D#8) (frameItems s.cfg.crcEn p)
  refine ⟨_, exec_encFrame_frames h, ?_, fun hcrc => ?_, fun hcrc => ?_⟩
  · rw [hlen, hitems, ← Nat.add_assoc]
    rfl
  · rw [if_pos hcrc] at hitems
    omega
  · rw [if_neg (Bool.eq_false_iff.1 hcrc)] at hitems
    omega

/-- Settles O35: the body is escaped, byte by byte. -/
theorem delimitersStandOnlyAtTheEnds : Obligations.DelimitersStandOnlyAtTheEnds :=
  fun _ _ _ h => ⟨_, exec_encFrame_frames h, flagByte_notMem_escapedBytes _, escape_followed_in_escapedBytes _⟩

/-- Settles O36: the frame is a function of `CRC_EN` and the payload. -/
theorem encoderIgnoresHistory : Obligations.EncoderIgnoresHistory := by
  intro s s' t t' p hcrc h h'
  have hframes' := exec_encFrame_frames h'
  rw [← hcrc] at hframes'
  exact ⟨_, exec_encFrame_frames h, hframes'⟩

end Sys2Proof
end

section
/-! SUPPORT. The decoder fed with any wire bytes without a delimiter, and with a delimiter after them (spec/42_frame_decoder.md R154,
R155, R162): the data bytes they hold, where those fit and where they do not, and what the delimiter then delivers. -/

namespace Sys2Proof.Machine

open Sys2Proof.Claims

/-! ## The data bytes of a wire sequence -/

theorem dataOf_escape (ds : List Byte) : dataOf false (escByte :: ds) = dataOf true ds := if_pos rfl

theorem dataOf_data {esc : Bool} {d : Byte} (h : d = escByte → esc = true) (ds : List Byte) :
    dataOf esc (d :: ds) = (unescape esc d :: (dataOf false ds).1, (dataOf false ds).2) := by
  cases esc with
  | true => rfl
  | false => exact if_neg fun hd => absurd (h hd) (by decide)

/-- An encoder's one or two bytes for `b` hold the data byte `b`. -/
theorem dataOf_escapedByte_append (b : Byte) (ds : List Byte) :
    dataOf false (escapedByte b ++ ds) = (b :: (dataOf false ds).1, (dataOf false ds).2) := by
  cases h : needsEscape b with
  | false =>
    have hb : b ≠ escByte := by rintro rfl; exact absurd h (by decide)
    rw [escapedByte_plain h, List.singleton_append, dataOf_data (fun hd => absurd hd hb), unescape_false]
  | true =>
    rw [escapedByte_special h, List.cons_append, dataOf_escape, List.singleton_append, dataOf_data (fun _ => rfl),
      unescape_true, xor_escXor_twice]

theorem dataOf_escapedBytes (u : List Byte) : dataOf false (escapedBytes u) = (u, false) := by
  induction u with
  | nil => rfl
  | cons b u ih => rw [escapedBytes_cons, dataOf_escapedByte_append, ih]

/-! ## Wire bytes without a delimiter -/

/-- The three things such a byte can be to a frame that is not abandoned. -/
theorem decByte_wire_cases {d : Byte} {s : State} (hd : d ≠ flagByte) (hf : s.decFail = false) (ds : List Byte) :
    (s.decEsc = false ∧ decByte d s = takeEsc s ∧ dataOf s.decEsc (d :: ds) = dataOf true ds) ∨
    (s.decLen = s.cfg.maxPayload ∧ decByte d s = takeOverflow (s.setDecEsc false) ∧
      dataOf s.decEsc (d :: ds) = (unescape s.decEsc d :: (dataOf false ds).1, (dataOf false ds).2)) ∨
    (s.decLen ≠ s.cfg.maxPayload ∧
      decByte d s = ((s.setDecEsc false).appendByte (unescape s.decEsc d)).setRxCrc
        (crcUpdate s.rxCrc (unescape s.decEsc d)) ∧
      dataOf s.decEsc (d :: ds) = (unescape s.decEsc d :: (dataOf false ds).1, (dataOf false ds).2)) := by
  rcases decByte_cases d s with
    ⟨hflag, -⟩ | ⟨rfl, he, -, hk⟩ | ⟨-, hfail, -⟩ | ⟨-, he, -, hfull, hk⟩ | ⟨-, he, -, hroom, hk⟩
  · exact absurd hflag hd
  · exact .inl ⟨he, hk, he ▸ dataOf_escape ds⟩
  · exact absurd (hf.symm.trans hfail) (by decide)
  · exact .inr (.inl ⟨hfull, hk, dataOf_data he ds⟩)
  · exact .inr (.inr ⟨hroom, hk, dataOf_data he ds⟩)

/-- Data bytes that fit stand in the buffer in order, folded, and change nothing else but `DEC.ESC`. -/
theorem decBytes_wire_of_room (w : List Byte) (s : State) (hw : flagByte ∉ w) (hf : s.decFail = false)
    (hroom : s.decLen + (dataOf s.decEsc w).1.length ≤ s.cfg.maxPayload) :
    decBytes w s = { s with
      decEsc := (dataOf s.decEsc w).2, decBuf := s.decBuf ++ (dataOf s.decEsc w).1,
      rxCrc := if s.cfg.crcEn = true then crcFold s.rxCrc (dataOf s.decEsc w).1 else s.rxCrc } := by
  induction w generalizing s with
  | nil => simp [dataOf]
  | cons d w ih =>
    obtain ⟨hd, hw⟩ := List.ne_and_not_mem_of_not_mem_cons hw
    rcases decByte_wire_cases hd.symm hf w with ⟨he, hk, hdata⟩ | ⟨hfull, -, hdata⟩ | ⟨-, hk, hdata⟩
    · rw [hdata] at hroom ⊢
      rw [decBytes_cons, hk]
      exact ih (takeEsc s) hw hf hroom
    · rw [hdata, List.length_cons] at hroom
      omega
    · rw [hdata, List.length_cons] at hroom
      rw [decBytes_cons, hk, hdata]
      refine (ih (s := ((s.setDecEsc false).appendByte (unescape s.decEsc d)).setRxCrc
        (crcUpdate s.rxCrc (unescape s.decEsc d))) hw hf ?_).trans ?_
      · simp only [State.setRxCrc_decLen, State.appendByte_decLen, State.setDecEsc_decLen, State.setRxCrc_cfg,
          State.appendByte_cfg, State.setDecEsc_cfg, State.setRxCrc_decEsc, State.appendByte_decEsc,
          State.setDecEsc_decEsc]
        omega
      · cases hcrc : s.cfg.crcEn <;> simp [hcrc]

/-- One data byte too many abandons the frame and delivers nothing. -/
theorem decBytes_wire_overflows (w : List Byte) (s : State) (hw : flagByte ∉ w) (hf : s.decFail = false)
    (hle : s.decLen ≤ s.cfg.maxPayload) (hlt : s.cfg.maxPayload < s.decLen + (dataOf s.decEsc w).1.length) :
    (decBytes w s).decFail = true ∧ (decBytes w s).payloads = s.payloads := by
  induction w generalizing s with
  | nil => exact absurd hle (Nat.not_le.2 hlt)
  | cons d w ih =>
    obtain ⟨hd, hw⟩ := List.ne_and_not_mem_of_not_mem_cons hw
    rcases decByte_wire_cases hd.symm hf w with ⟨he, hk, hdata⟩ | ⟨-, hk, -⟩ | ⟨hroom, hk, hdata⟩
    · rw [hdata] at hlt
      rw [decBytes_cons, hk]
      exact ih (takeEsc s) hw hf hle hlt
    · have hfail : (takeOverflow (s.setDecEsc false)).decFail = true := rfl
      rw [decBytes_cons, hk, decBytes_ignored hw hfail]
      exact ⟨rfl, rfl⟩
    · rw [hdata, List.length_cons] at hlt
      rw [decBytes_cons, hk]
      refine ih _ hw hf ?_ ?_
      all_goals
        simp only [State.setRxCrc_decLen, State.appendByte_decLen, State.setDecEsc_decLen, State.setRxCrc_cfg,
          State.appendByte_cfg, State.setDecEsc_cfg, State.setRxCrc_decEsc, State.appendByte_decEsc,
          State.setDecEsc_decEsc]
        omega

/-! ## And then a delimiter (R162) -/

theorem takeFlag_payloads (s : State) :
    (takeFlag s).payloads =
      s.payloads ++ if s.decEsc = false ∧ s.frameValid = true then [s.framePayload] else [] := by
  split_ifs with h
  · obtain ⟨he, hv⟩ := h
    exact decByte_payloads_of_valid he hv
  · rw [List.append_nil]
    exact decByte_payloads_of_not_valid (d := flagByte) fun ⟨_, hv⟩ => h hv

/-- The test of case F2 in a state whose `RX_CRC` has folded its buffer. -/
theorem frameValid_iff_deliverable {s : State} (hf : s.decFail = false) (hcap : LenWithinCapacity s)
    (hfold : RxCrcIsFold s) : s.frameValid = true ↔ Deliverable s.cfg s.decBuf := by
  have hcap : s.decBuf.length ≤ s.cfg.maxPayload := hcap
  rw [frameValid_iff, State.decLen_def]
  constructor
  · rintro ⟨-, hlen, hres⟩
    refine ⟨hlen, hcap, fun hcrc => (crcFold_eq_residue_iff (by omega)).1 ?_⟩
    rw [← hfold hcrc hf, hres hcrc]
  · rintro ⟨hlen, -, hsent⟩
    refine ⟨hf, hlen, fun hcrc => ?_⟩
    rw [hfold hcrc hf]
    exact (crcFold_eq_residue_iff (by omega)).2 (hsent hcrc)

theorem framePayload_eq_payloadOf (s : State) : s.framePayload = payloadOf s.cfg s.decBuf := framePayload_eq s

theorem decBytes_append_flag (w : List Byte) (s : State) : decBytes (w ++ [flagByte]) s = takeFlag (decBytes w s) :=
  decBytes_append w [flagByte] s

section
variable {s : State} (hs : s.BetweenFrames)
include hs

theorem decLen_of_betweenFrames : s.decLen = 0 := by
  obtain ⟨hbuf, -, -⟩ := hs
  rw [State.decLen_def, hbuf, List.length_nil]

variable {w : List Byte} (hw : flagByte ∉ w)
include hw

theorem decBytes_wire_fits (hfit : (dataOf false w).1.length ≤ s.cfg.maxPayload) :
    decBytes w s = { s with
      decEsc := (dataOf false w).2, decBuf := (dataOf false w).1,
      rxCrc := if s.cfg.crcEn = true then crcFold s.rxCrc (dataOf false w).1 else s.rxCrc } := by
  have hlen := decLen_of_betweenFrames hs
  obtain ⟨hbuf, he, hf⟩ := hs
  rw [decBytes_wire_of_room w s hw hf (by rwa [hlen, he, Nat.zero_add]), he, hbuf]
  rfl

theorem decBytes_wire_exceeds (hlong : s.cfg.maxPayload < (dataOf false w).1.length) :
    (decBytes w s).decFail = true ∧ (decBytes w s).payloads = s.payloads := by
  have hlen := decLen_of_betweenFrames hs
  obtain ⟨-, he, hf⟩ := hs
  exact decBytes_wire_overflows w s hw hf (hlen ▸ Nat.zero_le _) (by rwa [hlen, he, Nat.zero_add])

/-- What wire bytes and then a delimiter deliver from between frames. -/
theorem decBytes_wire_flag_payloads (hrx : RxFresh s) :
    (decBytes (w ++ [flagByte]) s).payloads = s.payloads ++
      (if (dataOf false w).2 = false ∧ Deliverable s.cfg (dataOf false w).1 then [payloadOf s.cfg (dataOf false w).1]
       else []) := by
  rw [decBytes_append_flag]
  by_cases hfit : (dataOf false w).1.length ≤ s.cfg.maxPayload
  case neg =>
    obtain ⟨hfail, hkept⟩ := decBytes_wire_exceeds hs hw (Nat.not_le.1 hfit)
    rw [takeFlag_payloads_of_not_valid (frameValid_of_decFail hfail), hkept,
      if_neg fun ⟨_, _, hle, _⟩ => hfit hle, List.append_nil]
  case pos =>
    obtain ⟨-, -, hf⟩ := id hs
    have hfold (hcrc : s.cfg.crcEn = true) : (if s.cfg.crcEn = true then crcFold s.rxCrc (dataOf false w).1
        else s.rxCrc) = crcFold preset (dataOf false w).1 := by
      rw [if_pos hcrc, hrx hcrc]
      rfl
    have hstate := decBytes_wire_fits hs hw hfit
    have hvalid : (decBytes w s).frameValid = true ↔ Deliverable s.cfg (dataOf false w).1 := by
      rw [hstate]
      exact frameValid_iff_deliverable hf hfit fun hcrc _ => hfold hcrc
    simp only [takeFlag_payloads, hvalid, framePayload_eq_payloadOf]
    rw [hstate]

end

/-! ## Frames -/

/-- What a frame delivers after the delimiter that opens it. -/
theorem decBytes_frameOf_payloads (crcEn : Bool) (p : List Byte) (s : State) :
    (decBytes (frameOf crcEn p) s).payloads = (takeFlag s).payloads ++
      if Deliverable s.cfg (frameItems crcEn p) then [payloadOf s.cfg (frameItems crcEn p)] else [] := by
  have hwire := decBytes_wire_flag_payloads (takeFlag_betweenFrames s)
    (flagByte_notMem_escapedBytes (frameItems crcEn p)) (takeFlag_rxFresh s)
  rw [dataOf_escapedBytes, takeFlag_cfg] at hwire
  simp only [true_and] at hwire
  exact hwire

/-- Any bytes that end with a delimiter leave the decoder reset. -/
theorem decBytes_append_flag_reset (w : List Byte) (s : State) :
    (decBytes (w ++ [flagByte]) s).BetweenFrames ∧ RxFresh (decBytes (w ++ [flagByte]) s) := by
  rw [decBytes_append_flag]
  exact ⟨takeFlag_betweenFrames _, takeFlag_rxFresh _⟩

theorem decBytes_frameOf_reset (crcEn : Bool) (p : List Byte) (s : State) :
    (decBytes (frameOf crcEn p) s).BetweenFrames ∧ RxFresh (decBytes (frameOf crcEn p) s) :=
  decBytes_append_flag_reset (flagByte :: escapedBytes (frameItems crcEn p)) s

theorem takeFlag_payloads_of_betweenFrames {s : State} (hs : s.BetweenFrames) : (takeFlag s).payloads = s.payloads :=
  takeFlag_payloads_of_not_valid (frameValid_of_betweenFrames hs)

theorem deliverable_frameItems {c : Cfg} {p : List Byte} (h : RoundTrips c p) :
    Deliverable c (frameItems c.crcEn p) ∧ payloadOf c (frameItems c.crcEn p) = p := by
  obtain ⟨hon, hoff⟩ := h
  cases hcrc : c.crcEn with
  | true =>
    obtain ⟨hpos, hcap⟩ := hon hcrc
    have htake : (p ++ crcBytes p).take ((p ++ crcBytes p).length - 2) = p := by simp
    have hdrop : (p ++ crcBytes p).drop ((p ++ crcBytes p).length - 2) = crcBytes p := by simp
    rw [frameItems_on, Deliverable, payloadOf, htake, hdrop, if_pos hcrc, List.length_append, length_crcBytes]
    exact ⟨⟨by omega, hcap, fun _ => rfl⟩, rfl⟩
  | false =>
    obtain ⟨hlen, hcap⟩ := hoff hcrc
    rw [frameItems_off, payloadOf, if_neg (Bool.eq_false_iff.1 hcrc)]
    exact ⟨⟨hlen, hcap, fun hon => absurd (hcrc.symm.trans hon) (by decide)⟩, rfl⟩

theorem not_deliverable_frameItems {c : Cfg} {p : List Byte} (h : NeverRoundTrips c p) :
    ¬Deliverable c (frameItems c.crcEn p) := by
  obtain ⟨hon, hoff⟩ := h
  rintro ⟨hlen, hcap, -⟩
  rw [length_frameItems] at hlen hcap
  cases hcrc : c.crcEn with
  | true =>
    have := hon hcrc
    rw [if_pos hcrc] at hlen hcap
    omega
  | false =>
    have := hoff hcrc
    rw [if_neg (Bool.eq_false_iff.1 hcrc)] at hlen
    omega

/-! ## Commands that feed (R161) -/

theorem exec_of_fedBytes {i : Instr} {ds : List Byte} (h : fedBytes i = some ds) (s : State) :
    exec i s = .next (decBytes ds s) := by
  cases i with
  | decFeed d => cases h; rfl
  | decFeedChunk ds' => cases h; rfl
  | _ => cases h

/-! ## Delimiters between frames, and an escape before a delimiter (R165, R167) -/

theorem takeFlag_eq_self {s : State} (hs : s.BetweenFrames) (hrx : RxFresh s) : takeFlag s = s := by
  have hlen := decLen_of_betweenFrames hs
  have hinvalid := frameValid_of_betweenFrames hs
  obtain ⟨hbuf, he, hf⟩ := hs
  have hfresh : (if s.cfg.crcEn = true then 0xFFFF#16 else s.rxCrc) = s.rxCrc := by
    split_ifs with hcrc
    · exact (hrx hcrc).symm
    · rfl
  have hsilent : s.events ++ s.dropReason.recorded = s.events := by
    rw [dropReason_of_empty hf hlen]
    exact List.append_nil _
  rw [takeFlag_eq_of_not_valid he hinvalid, hfresh, hsilent, ← hbuf, ← hf]

theorem decBytes_replicate_flag (k : Nat) {s : State} (hs : s.BetweenFrames) (hrx : RxFresh s) :
    decBytes (List.replicate k flagByte) s = s := by
  induction k with
  | zero => rfl
  | succ k ih => rw [List.replicate_succ, decBytes_cons, decByte_flag, takeFlag_eq_self hs hrx, ih]

/-- An escape makes the delimiter after it deliver nothing: pending, it drops the frame, and where it is ignored, the frame
is abandoned. -/
theorem takeFlag_decByte_esc_payloads {s : State} (h : s.decFail = false → s.decEsc = false) :
    (takeFlag (decByte escByte s)).payloads = s.payloads := by
  cases hf : s.decFail with
  | false =>
    rw [decByte_esc s (h hf) hf]
    exact (takeFlag_drop_of_escaped (s := takeEsc s) rfl).2
  | true =>
    rw [decByte_ignored escByte s (by decide) hf, takeFlag_payloads_of_not_valid (frameValid_of_decFail hf)]

theorem decBytes_wire_esc_flag_payloads {s : State} {w : List Byte} (hs : s.BetweenFrames) (hw : flagByte ∉ w)
    (hesc : (dataOf false w).2 = false) : (decBytes (w ++ [escByte, flagByte]) s).payloads = s.payloads := by
  rw [decBytes_append, decBytes_cons, decBytes_cons, decBytes_nil, decByte_flag]
  by_cases hfit : (dataOf false w).1.length ≤ s.cfg.maxPayload
  case pos =>
    rw [decBytes_wire_fits hs hw hfit]
    exact takeFlag_decByte_esc_payloads fun _ => hesc
  case neg =>
    obtain ⟨hfail, hkept⟩ := decBytes_wire_exceeds hs hw (Nat.not_le.1 hfit)
    rw [takeFlag_decByte_esc_payloads fun hf => absurd (hf.symm.trans hfail) (by decide), hkept]

end Sys2Proof.Machine
end

section
/-! PROOFS. The obligations on byte sequences fed to the decoder, on frames sent and received, and the worked examples
(spec/42_frame_decoder.md sections 1 to 3, spec/70_reset_and_hazards.md R221, R228, spec/30_encoding.md R85). -/

namespace Sys2Proof

open Sys2Proof.Machine Sys2Proof.Claims

/-- Settles O53: after the delimiter that opens the frame, which may end an earlier one, the decoder is between frames, and the
payload with its CRC is deliverable. -/
theorem roundTripDeliversThePayload : Obligations.RoundTripDeliversThePayload := by
  intro e s p hcfg hp
  have hfits : p.length ≤ e.cfg.maxPayload := by
    obtain ⟨hon, hoff⟩ := hp
    rw [hcfg]
    cases hcrc : s.cfg.crcEn with
    | true => exact Nat.le_of_add_right_le (hon hcrc).2
    | false => exact (hoff hcrc).2
  obtain ⟨e', he', hframes⟩ := exec_encFrame_emits hfits
  obtain ⟨hdeliverable, hpayload⟩ := deliverable_frameItems hp
  rw [hcfg] at hframes
  refine ⟨e', _, _, if s.decEsc = false ∧ s.frameValid = true then [s.framePayload] else [], he', hframes,
    exec_decFeedChunk _ s, ?_, ?_, ?_, decBytes_frameOf_reset s.cfg.crcEn p s⟩
  · rw [decBytes_frameOf_payloads, takeFlag_payloads, if_pos hdeliverable, hpayload]
  · split_ifs
    · exact Nat.le_refl 1
    · exact Nat.zero_le 1
  · intro hs
    rw [if_neg fun ⟨_, hv⟩ => absurd (hv.symm.trans (frameValid_of_betweenFrames hs)) (by decide)]

/-- Settles O46: every case of a delimiter ends with the decoder reset, and an idle delimiter writes what is there. -/
theorem flagReturnsTheDecoderToReset : Obligations.FlagReturnsTheDecoderToReset := by
  refine ⟨fun s => ⟨_, exec_decFeed flagByte s, takeFlag_betweenFrames s, fun hcrc => ?_⟩, fun s k hs hrx => ?_⟩
  · exact takeFlag_rxFresh s (by rw [takeFlag_cfg, hcrc])
  · exact congrArg _ (decBytes_replicate_flag k hs hrx)

/-- Settles O49, by induction on the parts: a feed and a chunk are their bytes in order. -/
theorem streamingIndependence : Obligations.StreamingIndependence := by
  intro cmds parts s h
  rw [exec_decFeedChunk]
  induction parts generalizing cmds s with
  | nil => rw [List.map_eq_nil_iff.1 h]; rfl
  | cons ds parts ih =>
    obtain ⟨i, cmds, rfl, hi, hcmds⟩ := List.map_eq_cons_iff.1 h
    rw [execAll_cons_of_next (exec_of_fedBytes hi s), ih cmds _ hcmds, List.flatten_cons, decBytes_append]

/-- Settles O50: each escaped byte is one data byte with room. -/
theorem dataBytesAreBufferedInOrder : Obligations.DataBytesAreBufferedInOrder := by
  intro s u he hf hroom
  rw [← escapedBytes_eq_asWritten, exec_decFeedChunk, decBytes_escapedBytes_of_room u s he hf hroom]

/-- Settles O52: bytes that fit are buffered and folded, and the fold is the residue exactly where the last two are the CRC;
bytes that do not fit abandon the frame. -/
theorem deliveryCharacterisation : Obligations.DeliveryCharacterisation :=
  fun s _ hs hrx hw => ⟨_, exec_decFeedChunk _ s, decBytes_wire_flag_payloads hs hw hrx⟩

/-- Settles O54: payload and CRC are fewer than three bytes or more than the capacity. -/
theorem somePayloadsNeverRoundTrip : Obligations.SomePayloadsNeverRoundTrip := by
  intro e s p hcfg hlegal hs hp
  have hfits : p.length ≤ e.cfg.maxPayload := by
    obtain ⟨hleast, -⟩ := hlegal
    obtain ⟨hon, hoff⟩ := id hp
    rw [hcfg]
    cases hcrc : s.cfg.crcEn with
    | true => have := hon hcrc; omega
    | false => have := hoff hcrc; omega
  obtain ⟨e', he', hframes⟩ := exec_encFrame_emits hfits
  obtain ⟨hbetween, -⟩ := decBytes_frameOf_reset s.cfg.crcEn p s
  rw [hcfg] at hframes
  refine ⟨e', _, _, he', hframes, exec_decFeedChunk _ s, ?_, (decBytes_frame _ s).resp, hbetween⟩
  rw [decBytes_frameOf_payloads, takeFlag_payloads_of_betweenFrames hs, if_neg (not_deliverable_frameItems hp),
    List.append_nil]

/-- Settles O55: the delimiter that opens the next frame ends the abandoned one and delivers nothing. -/
theorem overflowRecovery : Obligations.OverflowRecovery := by
  intro s u p hs hlen hp
  have hempty := decLen_of_betweenFrames hs
  obtain ⟨-, he, hf⟩ := hs
  obtain ⟨hfail, hkept⟩ := decBytes_escapedBytes_overflows u s he hf (hempty ▸ Nat.zero_le _) (by omega)
  obtain ⟨hdeliverable, hpayload⟩ := deliverable_frameItems hp
  rw [← escapedBytes_eq_asWritten, ← frameOf_eq_asWritten]
  refine ⟨_, _, exec_decFeedChunk _ s, hfail, hkept, exec_decFeedChunk _ _, ?_⟩
  rw [decBytes_frameOf_payloads, takeFlag_payloads_of_not_valid (frameValid_of_decFail hfail), hkept, decBytes_cfg,
    if_pos hdeliverable, hpayload]

/-- Settles O56: whether the bytes before it fit or not, the escape makes the delimiter deliver nothing. -/
theorem escapeBeforeDelimiterDropsTheFrame : Obligations.EscapeBeforeDelimiterDropsTheFrame := by
  intro s w hs hw hesc
  have hreset := decBytes_append_flag_reset (w ++ [escByte]) s
  rw [List.append_assoc] at hreset
  exact ⟨_, exec_decFeedChunk _ s, decBytes_wire_esc_flag_payloads hs hw hesc, hreset⟩

/-- Settles O57: both buffers would fold to the residue, and one changed byte changes the fold. -/
theorem singleByteChangeIsDetected : Obligations.SingleByteChangeIsDetected := by
  intro s s' t t' p q b b' hs hs' hcrc hcfg hbuf hbuf' hne h h' hdelivers
  have hfolds {r : State} (hr : r.Inv) (hron : r.cfg.crcEn = true) (hd : (decByte flagByte r).payloads ≠ r.payloads) :
      crcFold preset r.decBuf = 0x1D0F#16 := by
    obtain ⟨-, -, -, -, hfold, -⟩ := hr
    obtain ⟨-, -, hvalid⟩ := Classical.not_not.1 (mt decByte_payloads_of_not_valid hd)
    obtain ⟨hf, -, hres⟩ := (frameValid_iff r).1 hvalid
    rw [← hfold hron hf, hres hron]
  cases h
  cases h'
  by_contra hdelivers'
  have hsame := (hfolds hs hcrc hdelivers).trans (hfolds hs' (hcfg ▸ hcrc) hdelivers').symm
  rw [hbuf, hbuf'] at hsame
  exact hne (eq_of_crcFold_eq hsame)

/-- Settles O59: the receiver's mode alone decides what of the sender's bytes is deliverable. -/
theorem mismatchedModes : Obligations.MismatchedModes := by
  constructor
  · intro e s p hsend hrecv hs hpos hfits hcap
    obtain ⟨e', he', hframes⟩ := exec_encFrame_emits hfits
    rw [hsend] at hframes
    have hdeliverable : Deliverable s.cfg (frameItems true p) := by
      rw [Deliverable, length_frameItems, if_pos rfl]
      exact ⟨Nat.add_le_add_right hpos 2, hcap, fun hon => absurd (hrecv.symm.trans hon) (by decide)⟩
    refine ⟨e', _, _, he', hframes, exec_decFeedChunk _ s, ?_⟩
    rw [decBytes_frameOf_payloads, takeFlag_payloads_of_betweenFrames hs, if_pos hdeliverable, payloadOf,
      if_neg (Bool.eq_false_iff.1 hrecv)]
    rfl
  · intro e s p hsend hrecv hs hlen hfits hcap
    obtain ⟨e', he', hframes⟩ := exec_encFrame_emits hfits
    rw [hsend] at hframes
    have hdeliverable : Deliverable s.cfg p ↔ p.drop (p.length - 2) = sentCrc (p.take (p.length - 2)) :=
      ⟨fun ⟨_, _, hcrc⟩ => hcrc hrecv, fun hcrc => ⟨hlen, hcap, fun _ => hcrc⟩⟩
    refine ⟨e', _, _, he', hframes, exec_decFeedChunk _ s, ?_⟩
    rw [decBytes_frameOf_payloads, takeFlag_payloads_of_betweenFrames hs, frameItems_off, payloadOf, if_pos hrecv]
    simp only [hdeliverable]

/-- Settles O45: the decoder answers every byte, and its frame has the ports in it. -/
theorem decoderIsTotal : Obligations.DecoderIsTotal := by
  intro s d ds
  have hd := decByte_frame d s
  have hds := decBytes_frame ds s
  exact ⟨⟨_, exec_decFeed d s, hd.resp, hd.frames⟩, _, exec_decFeedChunk ds s, hds.resp, hds.frames⟩

/-- Settles O48, by running the fold, the encoder and the decoder. -/
theorem workedExamplesRun : Obligations.WorkedExamplesRun := by
  refine ⟨?_, ⟨_, exec_encFrame (by decide), by decide⟩, ⟨_, execAll_map_decFeed _ _, by decide⟩,
    ⟨_, exec_decFeedChunk _ _, by decide⟩, ⟨_, exec_decFeedChunk _ _, by decide⟩⟩
  have hblock := execAll_crcReset_map_crcUpdate
    [0x31#8, 0x32#8, 0x33#8, 0x34#8, 0x35#8, 0x36#8, 0x37#8, 0x38#8, 0x39#8] State.reset
  have hfold : crcFold preset [0x31#8, 0x32#8, 0x33#8, 0x34#8, 0x35#8, 0x36#8, 0x37#8, 0x38#8, 0x39#8] = 0x29B1#16 := by
    decide
  rw [hfold] at hblock
  exact (execAll_append_of_next hblock [.crcValue]).trans (execAll_cons_of_next (exec_crcValue _) [])

/-- Settles O51: the two special bytes' codes, the encoder's frame, and the one data byte that an escape and a byte hold. -/
theorem escapedByteStandsForItsXor : Obligations.EscapedByteStandsForItsXor := by
  refine ⟨by decide, by decide, fun b hflag hesc => escapedByte_plain ?_, fun s p hp => exec_encFrame_emits hp,
    fun s b he hf hroom hb => ⟨_, exec_decFeedChunk _ s, ?_⟩⟩
  · exact Bool.eq_false_iff.2 (mt (needsEscape_iff b).1 (not_or.2 ⟨hflag, hesc⟩))
  · have hw : flagByte ∉ [escByte, b] := by simp [flagByte, escByte, hb.symm]
    have hstate := decBytes_wire_of_room [escByte, b] s hw hf
    rw [he, dataOf_escape, dataOf_data fun _ => rfl] at hstate
    rw [show decBytes [0x7D#8, b] s = _ from hstate hroom]
    exact ⟨rfl, rfl⟩

end Sys2Proof
end
